-- ==== Sys2Proof/Word.lean ====
section
/-! DEFINITION. The word types of the block. Widths are those of 10_state.md; all values are unsigned (R8). -/

namespace Sys2Proof

/-- A byte of the bus or of the response buffer (R20). -/
abbrev Byte := BitVec 8

/-- A 16-bit word: a command frame (R55) or a data word of a triplet (R61). -/
abbrev Word := BitVec 16

/-- A request code, the value on `req_op` (R53). -/
abbrev ReqCode := BitVec 3

/-- A device address, `ADDR_W` = 7 bits (R16, R37). -/
abbrev DevAddr := BitVec 7

end Sys2Proof
end

