-- ==== Sys2Proof/Config.lean ====
section
/-! DEFINITION. The parameters of the block (R5, R11) and its free values (R9 `draw()`). -/

namespace Sys2Proof

/-- The six commands the block can send (R53, R56): a closed enumeration. -/
inductive Cmd where
  | measHigh
  | measMedium
  | measLow
  | readSerial
  | readStatus
  | softReset
  deriving DecidableEq, Repr

/-- `P_CMD_CODE`: a total map from the six commands to 16-bit wire opcodes (R56), one field a command. -/
structure CmdCodes where
  measHigh   : Word
  measMedium : Word
  measLow    : Word
  readSerial : Word
  readStatus : Word
  softReset  : Word
  deriving DecidableEq, Repr

/-- The default `P_CMD_CODE` of R56. PRESUMED: the spec marks these values as general knowledge (the SHT3x family), so
no statement rests on them (log 2). -/
def CmdCodes.sht3x : CmdCodes where
  measHigh   := 0x2400#16
  measMedium := 0x240B#16
  measLow    := 0x2416#16
  readSerial := 0x3780#16
  readStatus := 0xF32D#16
  softReset  := 0x30A2#16

/-- A bit range `hi:lo` of the status word (R109). -/
structure BitRange where
  hi : Nat
  lo : Nat
  deriving DecidableEq, Repr

/-- The number of bits of a range, `hi-lo+1` (R109). -/
abbrev BitRange.width (r : BitRange) : Nat := r.hi - r.lo + 1

/-- `P_STATUS_LAYOUT`: where each of the seven named fields stands, and the reserved ranges (R106, R107). DESIGN CHOICE: into
how many reserved fields a layout other than the default one divides its reserved bits, and in which order they are output, the
spec does not say (R117); a layout gives them as a list of any length, and they are output in its order (log 27). -/
structure StatusLayout where
  alertPending        : BitRange
  heaterStatus        : BitRange
  rhAlert             : BitRange
  tAlert              : BitRange
  systemResetDetected : BitRange
  commandStatus       : BitRange
  writeCrcStatus      : BitRange
  reserved            : List BitRange
  deriving DecidableEq, Repr

/-- The default `P_STATUS_LAYOUT` of R107; the reserved ranges are `rsv14`, `rsv12`, `rsv9_5`, `rsv3_2` in that order.
PRESUMED: general knowledge (the SHT3x family) in the spec's own words, so a statement about it takes it as a
hypothesis (log 3). -/
def StatusLayout.sht3x : StatusLayout where
  alertPending        := ⟨15, 15⟩
  heaterStatus        := ⟨13, 13⟩
  rhAlert             := ⟨11, 11⟩
  tAlert              := ⟨10, 10⟩
  systemResetDetected := ⟨4, 4⟩
  commandStatus       := ⟨1, 1⟩
  writeCrcStatus      := ⟨0, 0⟩
  reserved            := [⟨14, 14⟩, ⟨12, 12⟩, ⟨9, 5⟩, ⟨3, 2⟩]

/-- The seven named fields of a layout, from bit 15 downward in the default (R107). -/
def StatusLayout.named (l : StatusLayout) : List BitRange :=
  [l.alertPending, l.heaterStatus, l.rhAlert, l.tAlert, l.systemResetDetected, l.commandStatus, l.writeCrcStatus]

/-- The open parameters of R5, and the platform's `P_POWERUP` of R141 in clock edges. They are fixed for the life of a
model instance (R11): no step writes them (log 1). -/
structure Params where
  cmdCode      : CmdCodes
  layout       : StatusLayout
  ticksPerMs   : Nat
  powerUpEdges : Nat
  deriving DecidableEq, Repr

/-- The parameters that State.reset carries: the defaults of R56 and R107 (PRESUMED, logs 2 and 3), one tick per
millisecond and no power-up time (DESIGN CHOICE, log 4). -/
def Params.standard : Params where
  cmdCode      := CmdCodes.sht3x
  layout       := StatusLayout.sht3x
  ticksPerMs   := 1
  powerUpEdges := 0

/-- A free byte, R9's `draw()`: the n-th value an undelivered position of `RBUF` takes (R89). It has no body, so
nothing can be proved about the value (log 8). -/
opaque Config.freeByte : Nat → Byte

/-- A free word: the n-th value `RES_T_RAW` or `RES_RH_RAW` takes after a failed measurement (R78). It has no body
(log 8). -/
opaque Config.freeWord : Nat → Word

end Sys2Proof
end

