-- ==== Sys2Proof/Syntax.lean ====
section
/-! DEFINITION. The instructions: the requests of spec/opcode_table.json, one constructor a row (R53, R66). -/

namespace Sys2Proof

/-- A request of the caller (R51: the block's unit of instruction). Six of the codes take no operand. The row ILLEGAL
covers two codes, and `CUR_OP` keeps which one (R14, R86), so its constructor carries the code. -/
inductive Instr where
  /-- MEAS_HIGH, 0b000 (R99). -/
  | measHigh
  /-- MEAS_MEDIUM, 0b001 (R100). -/
  | measMedium
  /-- MEAS_LOW, 0b010 (R101). -/
  | measLow
  /-- READ_SERIAL, 0b011 (R102). -/
  | readSerial
  /-- READ_STATUS, 0b100 (R103). -/
  | readStatus
  /-- SOFT_RESET, 0b101 (R104). -/
  | softReset
  /-- ILLEGAL, 0b110 and 0b111 (R105): `code` is the request code itself. -/
  | illegal (code : ReqCode)
  deriving DecidableEq, Repr

end Sys2Proof
end

