-- ==== Sys2Proof/WellFormed.lean ====
section
/-! DEFINITION. When an instruction, and when a configuration, is well-formed. -/

namespace Sys2Proof

/-- An ILLEGAL request carries one of the two reserved codes, 6 or 7 (R54, R63). The other rows have no operand. -/
def Instr.wf : Instr → Bool
  | .measHigh | .measMedium | .measLow | .readSerial | .readStatus | .softReset => true
  | .illegal code => code == 6#3 || code == 7#3

/-- Does the range hold bit `b`? -/
def BitRange.covers (r : BitRange) (b : Nat) : Bool := decide (r.lo ≤ b) && decide (b ≤ r.hi)

/-- The range lies inside bits 15:0 and is not empty (R108, R109). -/
def BitRange.inWord (r : BitRange) : Bool := decide (r.lo ≤ r.hi) && decide (r.hi ≤ 15)

/-- The range is one bit wide (R108). -/
def BitRange.oneBit (r : BitRange) : Bool := r.hi == r.lo

/-- R57: the three measurement commands have pairwise different opcodes. -/
def CmdCodes.wf (c : CmdCodes) : Bool :=
  c.measHigh != c.measMedium && c.measHigh != c.measLow && c.measMedium != c.measLow

/-- R108, the named fields: each one bit wide and inside bits 15:0. -/
def StatusLayout.namedOneBit (l : StatusLayout) : Bool := l.named.all fun r => r.oneBit && r.inWord

/-- R108, the named fields are pairwise disjoint: as each is one bit wide, their positions differ. -/
def StatusLayout.namedDisjoint (l : StatusLayout) : Bool := decide (l.named.map BitRange.lo).Nodup

/-- R108: the reserved ranges lie inside bits 15:0. -/
def StatusLayout.reservedInWord (l : StatusLayout) : Bool := l.reserved.all BitRange.inWord

/-- R108: the reserved bits are exactly the bits no named field holds. -/
def StatusLayout.reservedExact (l : StatusLayout) : Bool :=
  (List.range 16).all fun b => l.reserved.any (·.covers b) == !l.named.any (·.covers b)

/-- R108: the layout is well-formed. -/
def StatusLayout.wf (l : StatusLayout) : Bool :=
  l.namedOneBit && l.namedDisjoint && l.reservedInWord && l.reservedExact

/-- R5: `P_TICKS_PER_MS` is an integer of at least 1. -/
def Params.ticksOk (p : Params) : Bool := decide (1 ≤ p.ticksPerMs)

/-- A configuration the model accepts (R5, R57, R108); it refuses any other. -/
def Params.wf (p : Params) : Bool := p.cmdCode.wf && p.layout.wf && p.ticksOk

end Sys2Proof
end

