-- ==== Sys2Proof/Decode.lean ====
section
/-! DEFINITION. Decoding and encoding of F-REQ (R53, R54, R63, R64, R66).

A request code is 3 bits on `req_op`. Where an interface counts in whole bytes, one byte carries one code in its bits
2:0, and its bits 7:3 are 0 (DESIGN CHOICE, log 15): any other byte is rejected by name. -/

namespace Sys2Proof

/-- Why bytes are no request. -/
inductive DecodeError where
  /-- There is no byte to read a code from. -/
  | noByte
  /-- A bit above the 3 bits of F-REQ is set: F-REQ has one fixed length, 3 bits (R64). -/
  | widerThanThreeBits
  deriving DecidableEq, Repr

/-- R53, R54: decoding is total on the 8 values of `req_op`. -/
def decodeReq (op : ReqCode) : Instr :=
  match op.toNat with
  | 0 => .measHigh
  | 1 => .measMedium
  | 2 => .measLow
  | 3 => .readSerial
  | 4 => .readStatus
  | 5 => .softReset
  | _ => .illegal op

/-- Reads one request from a list of bytes, and answers the bytes after it. -/
def decode : List Byte → Except DecodeError (Instr × List Byte)
  | [] => .error .noByte
  | b :: rest =>
    if b.extractLsb' 3 5 = 0#5 then .ok (decodeReq (b.extractLsb' 0 3), rest)
    else .error .widerThanThreeBits

/-- R53: the request code of an instruction. -/
def encodeReq : Instr → ReqCode
  | .measHigh     => 0b000#3
  | .measMedium   => 0b001#3
  | .measLow      => 0b010#3
  | .readSerial   => 0b011#3
  | .readStatus   => 0b100#3
  | .softReset    => 0b101#3
  | .illegal code => code

/-- The bytes of an instruction: its code in the low bits of one byte. -/
def encode (i : Instr) : List Byte := [(encodeReq i).setWidth 8]

/-- One row of the opcode table: a decoder matches `(req_op & mask) == pattern` (R66). -/
structure OpcodeRow where
  mnemonic : String
  pattern  : ReqCode
  mask     : ReqCode
  deriving DecidableEq, Repr

/-- R66: one row per request mnemonic, plus one row for the illegal codes. -/
def opcodeRows : List OpcodeRow :=
  [⟨"MEAS_HIGH", 0b000#3, 0b111#3⟩, ⟨"MEAS_MEDIUM", 0b001#3, 0b111#3⟩, ⟨"MEAS_LOW", 0b010#3, 0b111#3⟩,
   ⟨"READ_SERIAL", 0b011#3, 0b111#3⟩, ⟨"READ_STATUS", 0b100#3, 0b111#3⟩, ⟨"SOFT_RESET", 0b101#3, 0b111#3⟩,
   ⟨"ILLEGAL", 0b110#3, 0b110#3⟩]

/-- R66: does the row match the code? -/
def OpcodeRow.hits (r : OpcodeRow) (op : ReqCode) : Bool := (op &&& r.mask) == r.pattern

/-- The mnemonic of an instruction in the opcode table. -/
def Instr.mnemonic : Instr → String
  | .measHigh   => "MEAS_HIGH"
  | .measMedium => "MEAS_MEDIUM"
  | .measLow    => "MEAS_LOW"
  | .readSerial => "READ_SERIAL"
  | .readStatus => "READ_STATUS"
  | .softReset  => "SOFT_RESET"
  | .illegal _  => "ILLEGAL"

/-- The low `nbits` bits of `w`, as bytes, the least significant first. -/
def tableBytes (nbits w : Nat) : List Byte :=
  (List.range ((nbits + 7) / 8)).map fun k => BitVec.ofNat 8 (w % 2 ^ nbits / 2 ^ (8 * k))

/-- The instruction the decoder reads from a row's word, its bits numbered as spec/opcode_table.json numbers them. -/
def decodeTableWord (nbits w : Nat) : Option Instr :=
  match decode (tableBytes nbits w) with
  | .ok (i, _) => some i
  | .error _   => none

end Sys2Proof
end

