-- ==== Sys2Proof/Machine/State.lean ====
section
/-! DEFINITION. The state of the block (R10), the parameters and the environment it runs in, why a step can stop, and
the state after reset (R36). -/

namespace Sys2Proof.Machine

/-- `FSM_STATE` (R12). The encodings 6 and 7 are never entered, and a model's state type has only these six (R13). -/
inductive FsmState where
  | idle
  | cmdWrite
  | settle
  | respRead
  | arbitrate
  | complete
  deriving DecidableEq, Repr

/-- `RES_CODE` (R22, R62). -/
inductive ResCode where
  | ok
  | checksumMismatch
  | retryExhausted
  | illegalOp
  deriving DecidableEq, Repr

/-- `RBUF[0..5]` (R20): the field `b<i>` is `RBUF[i]`. -/
structure RBuf where
  b0 : Byte
  b1 : Byte
  b2 : Byte
  b3 : Byte
  b4 : Byte
  b5 : Byte
  deriving DecidableEq, Repr

/-- The input pins of the block at one rising edge of `clk`: the caller port (R31), the transport port (R32), the
address input (R33) and the reset (R34). -/
structure Pins where
  rst      : Bool
  reqValid : Bool
  reqOp    : ReqCode
  devAddr  : DevAddr
  rspAck   : Bool
  wrDone   : Bool
  wrOk     : Bool
  rdDone   : Bool
  rdLen    : BitVec 3
  rdData   : BitVec 48
  deriving DecidableEq, Repr

/-- Pins on which nothing happens: no reset, no request, no acknowledgement, no answer of the transport. -/
def Pins.quiet : Pins where
  rst      := false
  reqValid := false
  reqOp    := 0#3
  devAddr  := 0#7
  rspAck   := false
  wrDone   := false
  wrOk     := false
  rdDone   := false
  rdLen    := 0#3
  rdData   := 0#48

/-- The block's registers (R10), its parameters (R11), and the environment.

`timer` is `TIMER`, `TIMER_W` bits wide: a natural number, since its width is a function of a parameter; the invariant
bounds it (log 16). `script` is what the agents outside the block do at the coming edges, the next edge first; past its
end they do nothing (log 6). `draws` counts the free values drawn so far (log 8). -/
structure State where
  fsm         : FsmState
  curOp       : ReqCode
  phase       : Bool
  curAddr     : DevAddr
  attempt     : BitVec 4
  timer       : Nat
  rlen        : BitVec 3
  rbuf        : RBuf
  resValid    : Bool
  resCode     : ResCode
  resAttempts : BitVec 4
  resTRaw     : Word
  resRhRaw    : Word
  resSerial   : BitVec 32
  resStatus   : Word
  resResetOk  : Bool
  cfg         : Params
  draws       : Nat
  script      : List Pins
  deriving DecidableEq, Repr

/-- Why the machine stops. The block has no trap (R123), so no run of the hardware ends in one of these: both close a
case to which the spec gives no transition and which no run from reset reaches. Safe: the model stops where it has no
rule. -/
inductive Fault where
  /-- Raised by a transition of `CMD_WRITE`, `SETTLE`, `RESP_READ` or `ARBITRATE` that reads the effective command while
  there is none: `PHASE` = 0 and `CUR_OP` is 6 or 7. Those states are never entered with such a `CUR_OP` (R82). Safe. -/
  | noCommand
  /-- Raised in `ARBITRATE` when the effective command is `SOFT_RESET`, which R90 says never is. Safe. -/
  | noArbiterRule
  deriving DecidableEq, Repr

/-- Why the model gives no step. -/
inductive Refusal where
  /-- Raised by a dispatch arm whose instruction has no meaning yet. Safe. No arm raises it in this model. -/
  | notModelled (mnemonic : String)
  /-- Raised by every step under an ill-formed configuration: the spec says that a model refuses it (R57, R108; R5 for
  `P_TICKS_PER_MS`). Safe. -/
  | illFormedConfig
  deriving DecidableEq, Repr

/-- R36: every register after reset. The parameters are the ones Params.standard names (logs 2, 3, 4), no agent does
anything (log 6), and no value has been drawn (log 8). -/
def State.reset : State where
  fsm         := .idle
  curOp       := 0#3
  phase       := false
  curAddr     := 0#7
  attempt     := 0#4
  timer       := 0
  rlen        := 0#3
  rbuf        := ⟨0#8, 0#8, 0#8, 0#8, 0#8, 0#8⟩
  resValid    := false
  resCode     := .ok
  resAttempts := 0#4
  resTRaw     := 0x0000#16
  resRhRaw    := 0x0000#16
  resSerial   := 0x00000000#32
  resStatus   := 0x0000#16
  resResetOk  := false
  cfg         := Params.standard
  draws       := 0
  script      := []

end Sys2Proof.Machine
end

