-- ==== Sys2Proof/Machine/Operands.lean ====
section
/-! DEFINITION. The operand forms of a request: the command it sends and its wire frame (R55, R67, R68), response length
and settle delay (R83, R84), and the triplets, words and serial number of the response buffer (R9, R20, R58 to R61). -/

namespace Sys2Proof.Machine

/-- `N_ATTEMPTS`: at most 10 status-register read attempts (R5). -/
def nAttempts : BitVec 4 := 10#4

/-- `SETTLE_MS_SHORT` (R5). -/
def settleMsShort : Nat := 1

/-- `SETTLE_MS_MEAS` (R5). -/
def settleMsMeas : Nat := 15

/-- The code of MEAS_HIGH to SOFT_RESET names a command; the illegal codes have none (R53, R67). -/
def requestCommand : Instr → Option Cmd
  | .measHigh   => some .measHigh
  | .measMedium => some .measMedium
  | .measLow    => some .measLow
  | .readSerial => some .readSerial
  | .readStatus => some .readStatus
  | .softReset  => some .softReset
  | .illegal _  => none

/-- R82, `EC`: the command the current attempt of request `i` sends. -/
def effectiveCommand (i : Instr) (phase : Bool) : Option Cmd :=
  if phase then some .readStatus else requestCommand i

/-- `P_CMD_CODE(cmd)` (R56). -/
def cmdCode (p : Params) : Cmd → Word
  | .measHigh   => p.cmdCode.measHigh
  | .measMedium => p.cmdCode.measMedium
  | .measLow    => p.cmdCode.measLow
  | .readSerial => p.cmdCode.readSerial
  | .readStatus => p.cmdCode.readStatus
  | .softReset  => p.cmdCode.softReset

/-- R67, CommandFrame: the frame is the wire opcode. It has no address, length or checksum field (R55). -/
def commandFrame (p : Params) (c : Cmd) : Word := cmdCode p c

/-- R68, WireBytes: high byte first (R38). -/
def wireBytes (f : Word) : List Byte := [f.extractLsb' 8 8, f.extractLsb' 0 8]

/-- R83: how many triplets the response of a command holds. -/
def tripletCount : Cmd → Nat
  | .measHigh | .measMedium | .measLow => 2
  | .readSerial                        => 2
  | .readStatus                        => 1
  | .softReset                         => 0

/-- R83, `RESP_LEN`: a triplet is 3 bytes; the reset command has no read. -/
def respLen (c : Cmd) : Nat := 3 * tripletCount c

/-- R84, `SETTLE_MS`: one value for the three repeatability levels. -/
def settleMs : Cmd → Nat
  | .measHigh | .measMedium | .measLow        => settleMsMeas
  | .readSerial | .readStatus | .softReset    => settleMsShort

/-- R84, `SETTLE_TICKS`. -/
def settleTicks (p : Params) (c : Cmd) : Nat := settleMs c * p.ticksPerMs

/-- R5, `TIMER_W`: the least `w` with `2^w > 15 * P_TICKS_PER_MS`. -/
def timerWidth (p : Params) : Nat := Nat.log2 (settleMsMeas * p.ticksPerMs) + 1

/-- `RBUF[i]`. -/
def RBuf.get (b : RBuf) (i : Fin 6) : Byte :=
  match i with
  | 0 => b.b0
  | 1 => b.b1
  | 2 => b.b2
  | 3 => b.b3
  | 4 => b.b4
  | 5 => b.b5

/-- The buffer whose position `i` holds `f i`. -/
def RBuf.ofFn (f : Fin 6 → Byte) : RBuf := ⟨f 0, f 1, f 2, f 3, f 4, f 5⟩

/-- R9, `MemRead(i, n)`: `RBUF[i] ++ ... ++ RBUF[i+n-1]`, with `RBUF[i]` as the most significant byte. -/
def RBuf.memRead (b : RBuf) (i : Nat) : (n : Nat) → i + n ≤ 6 → BitVec (8 * n)
  | 0, _     => 0#0
  | n + 1, h => b.memRead i n (by omega) ++ b.get ⟨i + n, by omega⟩

/-- R9, `MemWrite(i, n, v)`: the n bytes of `v` into `RBUF[i..i+n-1]`, the most significant byte first. -/
def RBuf.memWrite (b : RBuf) (i n : Nat) (v : BitVec (8 * n)) : RBuf :=
  RBuf.ofFn fun j =>
    if i ≤ j.val ∧ j.val < i + n then v.extractLsb' (8 * (n - 1 - (j.val - i))) 8 else b.get j

/-- R40, R61: the 16-bit data word of triplet k, `MemRead(3k, 2)`. -/
def RBuf.word (b : RBuf) (k : Fin 2) : Word := b.memRead (3 * k.val) 2 (by omega)

/-- R58: triplet k of a response, `MemRead(3k, 3)`. -/
def RBuf.triplet (b : RBuf) (k : Fin 2) : BitVec 24 := b.memRead (3 * k.val) 3 (by omega)

/-- R60, F-SN: the data words of triplets 0 and 1; the checksum bytes take no part. -/
def RBuf.serial (b : RBuf) : BitVec 32 := b.word 0 ++ b.word 1

/-- R32: byte i of `rd_data` is `rd_data[47-8i : 40-8i]`. -/
def Pins.rdByte (p : Pins) (i : Fin 6) : Byte := p.rdData.extractLsb' (40 - 8 * i.val) 8

/-- R89: the delivered length, clamped to the requested count. -/
def Pins.deliveredLen (p : Pins) (count : Nat) : Nat := min p.rdLen.toNat count

/-- The input pins at the coming edge: the head of the script, and quiet pins past its end (log 6). -/
def State.pins (s : State) : Pins := s.script.headD Pins.quiet

end Sys2Proof.Machine
end

