-- ==== Sys2Proof/Machine/Crc.lean ====
section
/-! DEFINITION. The CRC-8 checksum validator (41_crc.md): the bit form of R69, the 8-bit-polynomial form of R70, the table
form of R71 and the triplet test of R72. The validator of the block uses the bit form; the other two are the
implementations the spec allows, with lemmas or statements that they agree. -/

namespace Sys2Proof.Machine

/-- `CRC_INIT` (R5). -/
def crcInit : Byte := 0xFF#8

/-- `CRC_POLY` with its x^8 term (R5). There is no final XOR. -/
def crcPoly : BitVec 9 := 0x131#9

/-- One bit step of R69: shift left, and XOR with the 9-bit polynomial when the top bit was set; byte-truncated. -/
def crcBit (c : Byte) : Byte :=
  if c.getLsbD 7 then ((c.setWidth 9 <<< 1) ^^^ crcPoly).setWidth 8
  else (c.setWidth 9 <<< 1).setWidth 8

/-- `n` bit steps of R69. -/
def crcBits : Nat → Byte → Byte
  | 0, c     => c
  | n + 1, c => crcBits n (crcBit c)

/-- R69, one data byte: XOR it into the register, then 8 bit steps. -/
def crcByte (c b : Byte) : Byte := crcBits 8 (c ^^^ b)

/-- R69's loop over a list of bytes, the first byte first. -/
def crcOf (bytes : List Byte) : Byte := bytes.foldl crcByte crcInit

/-- R69, `CRC8(b0, b1)`: byte0 first. -/
def crc8 (b0 b1 : Byte) : Byte := crcOf [b0, b1]

/-- R70: the bit step with the 8-bit polynomial 0x31. -/
def crcBit31 (c : Byte) : Byte := (c <<< 1) ^^^ (if c.getLsbD 7 then 0x31#8 else 0x00#8)

/-- R72, `TripletValid(b0, b1, c)`. -/
def tripletValid (b0 b1 c : Byte) : Bool := crc8 b0 b1 == c

/-- R58, R72: validity of a triplet seen as 24 bits, byte0 in bits 23:16, byte1 in 15:8 and the checksum in 7:0. -/
def tripletValid24 (t : BitVec 24) : Bool :=
  tripletValid (t.extractLsb' 16 8) (t.extractLsb' 8 8) (t.extractLsb' 0 8)

/-- How many bits of an error pattern are set: its weight (R74). -/
def weight24 (e : BitVec 24) : Nat := (List.range 24).countP (e.getLsbD ·)

/-- The rows 0x to 7x of the step table `T` as 95_test_vectors.md section 2 prints it. -/
def crcTableLow : List Byte :=
  [0x00#8, 0x31, 0x62, 0x53, 0xC4, 0xF5, 0xA6, 0x97, 0xB9, 0x88, 0xDB, 0xEA, 0x7D, 0x4C, 0x1F, 0x2E] ++
  [0x43#8, 0x72, 0x21, 0x10, 0x87, 0xB6, 0xE5, 0xD4, 0xFA, 0xCB, 0x98, 0xA9, 0x3E, 0x0F, 0x5C, 0x6D] ++
  [0x86#8, 0xB7, 0xE4, 0xD5, 0x42, 0x73, 0x20, 0x11, 0x3F, 0x0E, 0x5D, 0x6C, 0xFB, 0xCA, 0x99, 0xA8] ++
  [0xC5#8, 0xF4, 0xA7, 0x96, 0x01, 0x30, 0x63, 0x52, 0x7C, 0x4D, 0x1E, 0x2F, 0xB8, 0x89, 0xDA, 0xEB] ++
  [0x3D#8, 0x0C, 0x5F, 0x6E, 0xF9, 0xC8, 0x9B, 0xAA, 0x84, 0xB5, 0xE6, 0xD7, 0x40, 0x71, 0x22, 0x13] ++
  [0x7E#8, 0x4F, 0x1C, 0x2D, 0xBA, 0x8B, 0xD8, 0xE9, 0xC7, 0xF6, 0xA5, 0x94, 0x03, 0x32, 0x61, 0x50] ++
  [0xBB#8, 0x8A, 0xD9, 0xE8, 0x7F, 0x4E, 0x1D, 0x2C, 0x02, 0x33, 0x60, 0x51, 0xC6, 0xF7, 0xA4, 0x95] ++
  [0xF8#8, 0xC9, 0x9A, 0xAB, 0x3C, 0x0D, 0x5E, 0x6F, 0x41, 0x70, 0x23, 0x12, 0x85, 0xB4, 0xE7, 0xD6]

/-- The rows 8x to Fx of the step table `T` as 95_test_vectors.md section 2 prints it. -/
def crcTableHigh : List Byte :=
  [0x7A#8, 0x4B, 0x18, 0x29, 0xBE, 0x8F, 0xDC, 0xED, 0xC3, 0xF2, 0xA1, 0x90, 0x07, 0x36, 0x65, 0x54] ++
  [0x39#8, 0x08, 0x5B, 0x6A, 0xFD, 0xCC, 0x9F, 0xAE, 0x80, 0xB1, 0xE2, 0xD3, 0x44, 0x75, 0x26, 0x17] ++
  [0xFC#8, 0xCD, 0x9E, 0xAF, 0x38, 0x09, 0x5A, 0x6B, 0x45, 0x74, 0x27, 0x16, 0x81, 0xB0, 0xE3, 0xD2] ++
  [0xBF#8, 0x8E, 0xDD, 0xEC, 0x7B, 0x4A, 0x19, 0x28, 0x06, 0x37, 0x64, 0x55, 0xC2, 0xF3, 0xA0, 0x91] ++
  [0x47#8, 0x76, 0x25, 0x14, 0x83, 0xB2, 0xE1, 0xD0, 0xFE, 0xCF, 0x9C, 0xAD, 0x3A, 0x0B, 0x58, 0x69] ++
  [0x04#8, 0x35, 0x66, 0x57, 0xC0, 0xF1, 0xA2, 0x93, 0xBD, 0x8C, 0xDF, 0xEE, 0x79, 0x48, 0x1B, 0x2A] ++
  [0xC1#8, 0xF0, 0xA3, 0x92, 0x05, 0x34, 0x67, 0x56, 0x78, 0x49, 0x1A, 0x2B, 0xBC, 0x8D, 0xDE, 0xEF] ++
  [0x82#8, 0xB3, 0xE0, 0xD1, 0x46, 0x77, 0x24, 0x15, 0x3B, 0x0A, 0x59, 0x68, 0xFF, 0xCE, 0x9D, 0xAC]

/-- `T[x]` (R71). -/
def crcTable (x : Byte) : Byte := (crcTableLow ++ crcTableHigh).getD x.toNat 0x00#8

/-- R71, the table form: `T[ T[0xFF ^ b0] ^ b1 ]`. -/
def crc8Table (b0 b1 : Byte) : Byte := crcTable (crcTable (0xFF#8 ^^^ b0) ^^^ b1)

end Sys2Proof.Machine
end

