-- ==== Sys2Proof/Machine/Flags.lean ====
section
/-! DEFINITION. The status word's fields (45_status_decode.md) and the 2-bit encoding of the result code (R62). The fields
are combinational, not registers (R29). -/

namespace Sys2Proof.Machine

/-- R109: the value of a field, `(S >> lo) & ((1 << (hi-lo+1)) - 1)`: by shift and mask, never by memory layout. -/
def readField (r : BitRange) (S : Word) : Word :=
  (S >>> r.lo) &&& ((1#16 <<< r.width) - 1#16)

/-- A one-bit field as a truth value. -/
def flag (r : BitRange) (S : Word) : Bool := readField r S != 0#16

/-- R111, `cmdStatus(S)`: the only field with an effect inside the block (R107). -/
def cmdStatus (l : StatusLayout) (S : Word) : Bool := flag l.commandStatus S

/-- One reserved output: the bits of the word it shows, which name it (`st_rsv9_5` is the range 9:5), and its value, of the
field's own width (R31, R117). -/
structure ReservedField where
  range : BitRange
  value : BitVec range.width
  deriving DecidableEq, Repr

/-- R109 and R117: the reserved output of a range. -/
def readReserved (r : BitRange) (S : Word) : ReservedField := ⟨r, (readField r S).setWidth r.width⟩

/-- The outputs `st_*` (R29, R31): the seven named flags of 1 bit, and the reserved fields (R117), each of its own width. That
they are listed, one for each range of the layout's list and in its order, is the model's choice (DESIGN CHOICE, log 27). -/
structure StatusFields where
  writeCrc      : Bool
  cmd           : Bool
  resetDetected : Bool
  tAlert        : Bool
  rhAlert       : Bool
  heater        : Bool
  alertPending  : Bool
  reserved      : List ReservedField
  deriving DecidableEq, Repr

/-- R110 to R117: each field by its own accessor. -/
def decodeStatus (l : StatusLayout) (S : Word) : StatusFields where
  writeCrc      := flag l.writeCrcStatus S
  cmd           := cmdStatus l S
  resetDetected := flag l.systemResetDetected S
  tAlert        := flag l.tAlert S
  rhAlert       := flag l.rhAlert S
  heater        := flag l.heaterStatus S
  alertPending  := flag l.alertPending S
  reserved      := l.reserved.map (readReserved · S)

/-- R62: the result code as the output `res_code` shows it. -/
def ResCode.bits : ResCode → BitVec 2
  | .ok               => 0#2
  | .checksumMismatch => 1#2
  | .retryExhausted   => 2#2
  | .illegalOp        => 3#2

/-- R12: `FSM_STATE` as its 3-bit value. -/
def FsmState.bits : FsmState → BitVec 3
  | .idle      => 0#3
  | .cmdWrite  => 1#3
  | .settle    => 2#3
  | .respRead  => 3#3
  | .arbitrate => 4#3
  | .complete  => 5#3

end Sys2Proof.Machine
end

