-- ==== Sys2Proof/Machine/Ops.lean ====
section
/-! DEFINITION. The named operations on the block's registers: every write of a register is one of these. The writes of
one rule take effect together at the edge (R8).

The block takes no exception (R123). An error ends the request as a success does, through `State.finish` (R92), and
`State.release` is the caller's way back to `IDLE` (R93, R129). -/

namespace Sys2Proof.Machine

/-- R86: `CUR_OP` and `CUR_ADDR` are latched, the only reads of `req_op` and `cfg_dev_addr`. -/
def State.latch (s : State) (op : ReqCode) (addr : DevAddr) : State := { s with curOp := op, curAddr := addr }

/-- R86, R88: a first attempt begins: `PHASE` and `ATTEMPT` are set and the command is written next. -/
def State.beginAttempts (s : State) (phase : Bool) (attempt : BitVec 4) : State :=
  { s with phase := phase, attempt := attempt, fsm := .cmdWrite }

/-- R91: a retry, a full new command/read cycle. -/
def State.retry (s : State) : State := { s with attempt := s.attempt + 1#4, fsm := .cmdWrite }

/-- R86, R105: an illegal request performs no attempt. -/
def State.noAttempt (s : State) : State := { s with attempt := 0#4 }

/-- R87: the settle timer is loaded. -/
def State.loadTimer (s : State) (ticks : Nat) : State := { s with timer := ticks, fsm := .settle }

/-- R88: one settle tick. -/
def State.tick (s : State) : State := { s with timer := s.timer - 1 }

/-- R88: the settle delay has ended and a response is read. -/
def State.beginRead (s : State) : State := { s with fsm := .respRead }

/-- The six free bytes of one read completion (R89, log 8). -/
def State.freeBuf (s : State) : RBuf := RBuf.ofFn fun i => Config.freeByte (s.draws + i.val)

/-- R89: the buffer after a read completion: the delivered bytes at the positions 0 to n-1, in the order received, and
free values at the others. -/
def State.responseBuf (s : State) (count : Nat) : RBuf :=
  let n := s.pins.deliveredLen count
  s.freeBuf.memWrite 0 n (s.pins.rdData.extractLsb' (48 - 8 * n) (8 * n))

/-- R89: a read completion. All delivered bytes are latched together (R44). -/
def State.storeResponse (s : State) (count : Nat) : State :=
  { s with rlen := BitVec.ofNat 3 (s.pins.deliveredLen count), rbuf := s.responseBuf count, draws := s.draws + 6,
           fsm := .arbitrate }

/-- R78, verdict 1: temperature first, humidity second. -/
def State.writeMeas (s : State) (t rh : Word) : State := { s with resTRaw := t, resRhRaw := rh }

/-- R78, verdict 0: both raw words take any 16-bit value (log 8). -/
def State.drawMeas (s : State) : State :=
  { s with resTRaw := Config.freeWord s.draws, resRhRaw := Config.freeWord (s.draws + 1), draws := s.draws + 2 }

/-- R79: `RES_SERIAL`. -/
def State.writeSerial (s : State) (v : BitVec 32) : State := { s with resSerial := v }

/-- R80: `RES_STATUS`. -/
def State.writeStatus (s : State) (v : Word) : State := { s with resStatus := v }

/-- R104: `RES_RESET_OK`. -/
def State.writeResetOk (s : State) (ok : Bool) : State := { s with resResetOk := ok }

/-- R92, `complete(code)`: the one way a request ends. `RES_ATTEMPTS` takes `ATTEMPT` as the same step leaves it. -/
def State.finish (s : State) (code : ResCode) : State :=
  { s with resCode := code, resAttempts := s.attempt, resValid := true, fsm := .complete }

/-- R93: the caller has taken the result. -/
def State.release (s : State) : State := { s with resValid := false, fsm := .idle }

/-- R138: every register takes its value from R36. The parameters, the environment and the model's count of drawn values
are no registers of the block: a reset does not touch them (log 9). -/
def State.blockReset (s : State) : State :=
  { State.reset with cfg := s.cfg, draws := s.draws, script := s.script }

/-- The edge is over: the environment moves on to the next one. -/
def State.nextEdge (s : State) : State := { s with script := s.script.tail }

end Sys2Proof.Machine
end

