-- ==== Sys2Proof/Machine/Arbiter.lean ====
section
/-! DEFINITION. The frame-triplet checksum arbiter (42_triplet_arbiter.md) and the arbitration step of each kind of
response (R90). -/

namespace Sys2Proof.Machine

/-- R72 on triplet k of the buffer (R20). -/
def RBuf.tripletOk (b : RBuf) (k : Fin 2) : Bool :=
  tripletValid (b.get ⟨3 * k.val, by omega⟩) (b.get ⟨3 * k.val + 1, by omega⟩) (b.get ⟨3 * k.val + 2, by omega⟩)

/-- R76, `Verdict(n)`: a short read fails whatever the bytes (R77), and every one of the n triplets must be valid. -/
def verdict (n : Nat) (s : State) : Bool :=
  decide (3 * n ≤ s.rlen.toNat) &&
    ([0, 1] : List (Fin 2)).all fun k => !decide (k.val < n) || s.rbuf.tripletOk k

/-- R78: the measurement result write, at the `ARBITRATE` step of a measurement. -/
def arbitrateMeasurement (s : State) : State :=
  if verdict 2 s then (s.writeMeas (s.rbuf.word 0) (s.rbuf.word 1)).finish .ok
  else s.drawMeas.finish .checksumMismatch

/-- R79: the serial-number result write; 0 is the source's sentinel. -/
def arbitrateSerial (s : State) : State :=
  if verdict 2 s then (s.writeSerial s.rbuf.serial).finish .ok
  else (s.writeSerial 0x00000000#32).finish .checksumMismatch

/-- R104, the result write: the reset succeeded iff `commandStatus` of the final status word is clear. -/
def resetResult (softReset : Bool) (s : State) : State :=
  if softReset then s.writeResetOk (!cmdStatus s.cfg.layout (s.rbuf.word 0)) else s

/-- R91, R80: the status word is taken when the attempt validates or is the 10th; before that a failed attempt is
retried and writes no result register. `softReset` says whether the request is SOFT_RESET. -/
def arbitrateStatus (softReset : Bool) (s : State) : State :=
  if verdict 1 s || s.attempt == nAttempts then
    (resetResult softReset (s.writeStatus (s.rbuf.word 0))).finish
      (if verdict 1 s then .ok else .retryExhausted)
  else s.retry

end Sys2Proof.Machine
end

