-- ==== Sys2Proof/Machine/Sequencer.lean ====
section
/-! DEFINITION. The acquisition sequencer (43_sequencer.md): what a request does at one rising edge of `clk` with
`rst` = 0, in each state of the state machine. Exactly one of these transitions applies at each edge.

The edge-by-edge form is the normative one (44_operations.md, opening paragraph). So the meaning of a request is its
behaviour at one edge, and a whole request is a run of steps (log 5). -/

namespace Sys2Proof.Machine

/-- What a meaning answers. -/
abbrev Result := Host.Outcome State Fault Refusal

/-- R86: a request is accepted in `IDLE`. An illegal code completes at once and reaches no bus (R105, R127); it leaves
`PHASE` as it was: the request ends at this edge, so that it is in progress in no state (R92, R30; log 12). -/
def acceptRequest (i : Instr) (s : State) : State :=
  let latched := s.latch (encodeReq i) s.pins.devAddr
  match requestCommand i with
  | none   => latched.noAttempt.finish .illegalOp
  | some c => latched.beginAttempts (c == .readStatus) (if c = .softReset then 0#4 else 1#4)

/-- R87: `CMD_WRITE` waits for `wr_done`, without bound (R94). `wr_ok` is not read (R125). -/
def cmdWriteEdge (ec : Option Cmd) (s : State) : Result :=
  if s.pins.wrDone then
    match ec with
    | none   => .fault .noCommand
    | some c => .next (s.loadTimer (settleTicks s.cfg c))
  else .next s

/-- R88: `SETTLE` counts down, and then reads the response; the reset command has none, and its settle leads to the
first status-read attempt. -/
def settleEdge (ec : Option Cmd) (s : State) : Result :=
  if s.timer ≠ 0 then .next s.tick
  else
    match ec with
    | none   => .fault .noCommand
    | some c => if respLen c = 0 then .next (s.beginAttempts true 1#4) else .next s.beginRead

/-- R89: `RESP_READ` waits for `rd_done`, without bound (R94). -/
def respReadEdge (ec : Option Cmd) (s : State) : Result :=
  if s.pins.rdDone then
    match ec with
    | none   => .fault .noCommand
    | some c => .next (s.storeResponse (respLen c))
  else .next s

/-- R90: `ARBITRATE` applies the arbiter for the effective command. -/
def arbitrateEdge (softReset : Bool) (ec : Option Cmd) (s : State) : Result :=
  match ec with
  | none             => .fault .noCommand
  | some .measHigh   => .next (arbitrateMeasurement s)
  | some .measMedium => .next (arbitrateMeasurement s)
  | some .measLow    => .next (arbitrateMeasurement s)
  | some .readSerial => .next (arbitrateSerial s)
  | some .readStatus => .next (arbitrateStatus softReset s)
  | some .softReset  => .fault .noArbiterRule

/-- R93: `COMPLETE` waits for `rsp_ack`, without bound. A request presented at the same edge is not accepted. -/
def completeEdge (s : State) : Result := if s.pins.rspAck then .next s.release else .next s

/-- One edge of the request `i`, by the state the machine is in (R95). In `IDLE` the request is accepted: the step runs
it there only when `req_valid` = 1. -/
def requestEdge (i : Instr) (s : State) : Result :=
  match s.fsm with
  | .idle      => .next (acceptRequest i s)
  | .cmdWrite  => cmdWriteEdge (effectiveCommand i s.phase) s
  | .settle    => settleEdge (effectiveCommand i s.phase) s
  | .respRead  => respReadEdge (effectiveCommand i s.phase) s
  | .arbitrate => arbitrateEdge (decide (i = .softReset)) (effectiveCommand i s.phase) s
  | .complete  => completeEdge s

end Sys2Proof.Machine
end

