-- ==== Sys2Proof/Machine/Measurement.lean ====
section
/-! DEFINITION. The meanings of the three measurement requests (R99, R100, R101): one attempt with a 15 ms settle and a
6-byte read, then R78. They differ only in the command sent. -/

namespace Sys2Proof.Machine

/-- MEAS_HIGH (R99). -/
def execMeasHigh (s : State) : Result := requestEdge .measHigh s

/-- MEAS_MEDIUM (R100). -/
def execMeasMedium (s : State) : Result := requestEdge .measMedium s

/-- MEAS_LOW (R101). -/
def execMeasLow (s : State) : Result := requestEdge .measLow s

end Sys2Proof.Machine
end

