-- ==== Sys2Proof/Machine/Registers.lean ====
section
/-! DEFINITION. The meanings of the requests that read a sensor register (R102, R103), of the sensor's soft reset (R104)
and of the reserved request codes (R105). -/

namespace Sys2Proof.Machine

/-- READ_SERIAL (R102): one attempt with a 1 ms settle and a 6-byte read, then R79. -/
def execReadSerial (s : State) : Result := requestEdge .readSerial s

/-- READ_STATUS (R103): up to 10 attempts with a 1 ms settle and a 3-byte read each, then R80. -/
def execReadStatus (s : State) : Result := requestEdge .readStatus s

/-- SOFT_RESET (R104): the reset command with a 1 ms settle and no read, then the status read of R103 and the test of
`commandStatus`. It resets the sensor, not the block (R140). -/
def execSoftReset (s : State) : Result := requestEdge .softReset s

/-- ILLEGAL (R105): completes at the acceptance edge with `ILLEGAL_OP`; no bus operation. -/
def execIllegal (code : ReqCode) (s : State) : Result := requestEdge (.illegal code) s

end Sys2Proof.Machine
end

