-- ==== Sys2Proof/Machine/Dispatch.lean ====
section
/-! DEFINITION. One arm per instruction: what the request does at one edge. -/

namespace Sys2Proof.Machine

def exec (i : Instr) (s : State) : Host.Outcome State Fault Refusal :=
  match i with
  | .measHigh => Sys2Proof.Machine.execMeasHigh s
  | .measMedium => Sys2Proof.Machine.execMeasMedium s
  | .measLow => Sys2Proof.Machine.execMeasLow s
  | .readSerial => Sys2Proof.Machine.execReadSerial s
  | .readStatus => Sys2Proof.Machine.execReadStatus s
  | .softReset => Sys2Proof.Machine.execSoftReset s
  | .illegal code => Sys2Proof.Machine.execIllegal code s

end Sys2Proof.Machine
end

