-- ==== Sys2Proof/Machine/Fetch.lean ====
section
/-! DEFINITION. Which request runs at the coming edge, and how a request comes to stand on the caller port. -/

namespace Sys2Proof.Machine

/-- R51, R86: in `IDLE`, the request on the caller port when `req_valid` = 1, and none otherwise (R85); in any other state,
the request in progress, held in `CUR_OP` (R14). -/
def State.fetch (s : State) : Option Instr :=
  match s.fsm with
  | .idle => if s.pins.reqValid then some (decodeReq s.pins.reqOp) else none
  | .cmdWrite | .settle | .respRead | .arbitrate | .complete => some (decodeReq s.curOp)

/-- The meaning's next state, changed by `f`; a fault or a refusal stays. -/
def onNext (f : State → State) : Result → Result
  | .next s    => .next (f s)
  | .fault r   => .fault r
  | .refused r => .refused r

/-- The pins `p` with the request code `op` presented and no reset (R31). -/
def Pins.withRequest (p : Pins) (op : ReqCode) : Pins := { p with rst := false, reqValid := true, reqOp := op }

/-- The state in which the caller presents the request code `op` at the coming edge and the block can accept it: it is in
`IDLE`, so no result is pending (R21). -/
def State.presentRequest (s : State) (op : ReqCode) : State :=
  { s with fsm := .idle, resValid := false, script := s.pins.withRequest op :: s.script.tail }

end Sys2Proof.Machine
end

