-- ==== Sys2Proof/Machine/Step.lean ====
section
/-! DEFINITION. One step is one rising edge of `clk` (R7). -/

namespace Sys2Proof.Machine

/-- One edge. An ill-formed configuration is refused (R57, R108). `rst` = 1 overrides every other rule (R127, R138). With no
request in `IDLE` nothing changes (R85). Otherwise the request runs. Then the environment moves on. -/
def step (s : State) : Host.Outcome State Fault Refusal :=
  if s.cfg.wf then
    if s.pins.rst then .next s.blockReset.nextEdge
    else
      match s.fetch with
      | none   => .next s.nextEdge
      | some i => onNext State.nextEdge (exec i s)
  else .refused .illFormedConfig

/-- The state whose next step runs the request whose code the bits 2:0 of `w` give (log 7): a caller presents it. -/
def State.withFetchWord (s : State) (nbits w : Nat) : State :=
  s.presentRequest (BitVec.ofNat 3 (w % 2 ^ nbits))

end Sys2Proof.Machine
end

