-- ==== Sys2Proof/Machine/Conversion.lean ====
section
/-! DEFINITION. The host's reference conversions (46_reference_conversion.md). They are outside the block: no rule of the
block reads them. They fix what a raw word means, over exact rationals (log 22). -/

namespace Sys2Proof.Machine

/-- R119, in degrees Celsius. -/
def temperatureC (raw : Word) : ℚ := 175 * (raw.toNat : ℚ) / 65535 - 45

/-- R120, in percent relative humidity. -/
def humidityPct (raw : Word) : ℚ := 100 * (raw.toNat : ℚ) / 65535

/-- R121, in degrees Fahrenheit. -/
def temperatureF (c : ℚ) : ℚ := 9 / 5 * c + 32

end Sys2Proof.Machine
end

