-- ==== Sys2Proof/Machine/Ports.lean ====
section
/-! DEFINITION. The output ports (R31, R32, R35): functions of the registers alone (Moore outputs). -/

namespace Sys2Proof.Machine

/-- R82, `EC`, from the registers `PHASE` and `CUR_OP`. None while `CUR_OP` is 6 or 7 and `PHASE` = 0: there the spec gives
no command, and no agent samples the outputs made from it (R67, log 20). -/
def State.ec (s : State) : Option Cmd := effectiveCommand (decodeReq s.curOp) s.phase

/-- The signals towards the caller (R31) and towards the transport (R32). -/
structure Outputs where
  reqReady    : Bool
  rspValid    : Bool
  resCode     : BitVec 2
  resAttempts : BitVec 4
  resTRaw     : Word
  resRhRaw    : Word
  resSerial   : BitVec 32
  resStatus   : Word
  resResetOk  : Bool
  st          : StatusFields
  wrReq       : Bool
  wrAddr      : DevAddr
  wrData      : Option Word
  rdReq       : Bool
  rdAddr      : DevAddr
  rdCount     : Option (BitVec 3)
  deriving DecidableEq, Repr

/-- R35. -/
def State.outputs (s : State) : Outputs where
  reqReady    := s.fsm == .idle
  rspValid    := s.resValid
  resCode     := s.resCode.bits
  resAttempts := s.resAttempts
  resTRaw     := s.resTRaw
  resRhRaw    := s.resRhRaw
  resSerial   := s.resSerial
  resStatus   := s.resStatus
  resResetOk  := s.resResetOk
  st          := decodeStatus s.cfg.layout s.resStatus
  wrReq       := s.fsm == .cmdWrite
  wrAddr      := s.curAddr
  wrData      := s.ec.map (commandFrame s.cfg)
  rdReq       := s.fsm == .respRead
  rdAddr      := s.curAddr
  rdCount     := s.ec.map fun c => BitVec.ofNat 3 (respLen c)

end Sys2Proof.Machine
end

