-- ==== Sys2Proof/Machine/Trace.lean ====
section
/-! DEFINITION. Runs of steps, and what the transport sees of one: the bus transactions it ends (R9 `BusWrite`, `BusRead`;
R44). -/

namespace Sys2Proof.Machine

/-- One bus transaction, at the edge that ends it. -/
inductive BusEvent where
  /-- `BusWrite(addr, frame)` ends at `wr_done`: the bytes of the frame in the order sent (R38). -/
  | write (addr : DevAddr) (bytes : List Byte)
  /-- `BusRead(addr, n)` ends at `rd_done`: the number of bytes requested (R43). -/
  | read (addr : DevAddr) (count : BitVec 3)
  deriving DecidableEq, Repr

/-- The transaction that the coming edge ends: `wr_done` counts only in `CMD_WRITE` and `rd_done` only in `RESP_READ` (R32),
and a reset withdraws a transaction (R139). -/
def State.busEvent (s : State) : Option BusEvent :=
  if s.pins.rst then none
  else
    match s.fsm with
    | .cmdWrite => if s.pins.wrDone then s.outputs.wrData.map fun f => .write s.curAddr (wireBytes f) else none
    | .respRead => if s.pins.rdDone then s.outputs.rdCount.map fun n => .read s.curAddr n else none
    | .idle | .settle | .arbitrate | .complete => none

/-- `k` steps, stopping at the first fault or refusal. -/
def runSteps : Nat → State → Result
  | 0, s => .next s
  | k + 1, s =>
    match step s with
    | .next t    => runSteps k t
    | .fault r   => .fault r
    | .refused r => .refused r

/-- The transactions that `k` steps from `s` end, in order. -/
def busTrace : Nat → State → List BusEvent
  | 0, _ => []
  | k + 1, s =>
    match step s with
    | .next t    => s.busEvent.toList ++ busTrace k t
    | .fault _   => []
    | .refused _ => []

end Sys2Proof.Machine
end

