-- ==== Sys2Proof/Safety.lean ====
section
/-! DEFINITION. What the statements about the block are said in: the invariant of its reachable states, the duties of the
agents around it (R134, R141), when a caller may rely on a result (R143), and the edges one attempt of a request takes. -/

namespace Sys2Proof.Safety

open Sys2Proof.Machine

/-- A request is in progress: the block is neither waiting for one nor holding a result (R12). -/
abbrev busy (s : State) : Prop := s.fsm ≠ .idle ∧ s.fsm ≠ .complete

/-- The request is one of the three measurements. -/
abbrev isMeasurement (i : Instr) : Prop := i = .measHigh ∨ i = .measMedium ∨ i = .measLow

/-- The request ends in a status read (R103, R104). -/
abbrev readsStatus (i : Instr) : Prop := i = .readStatus ∨ i = .softReset

/-- What `COMPLETE` holds (R22, R23, R26, R28, R62, R124): the attempt count, and which code goes with which request. -/
structure CompletedResult (s : State) : Prop where
  attempts        : s.resAttempts = s.attempt
  illegal_iff     : s.resCode = .illegalOp ↔ requestCommand (decodeReq s.curOp) = none
  illegal_zero    : s.resCode = .illegalOp → s.attempt = 0#4
  legal_attempts  : s.resCode ≠ .illegalOp → 1 ≤ s.attempt.toNat
  mismatch        : s.resCode = .checksumMismatch → ¬ readsStatus (decodeReq s.curOp) ∧ s.attempt = 1#4
  exhausted       : s.resCode = .retryExhausted → readsStatus (decodeReq s.curOp) ∧ s.attempt = nAttempts
  serial_sentinel : s.resCode = .checksumMismatch → decodeReq s.curOp = .readSerial → s.resSerial = 0#32
  reset_result    : decodeReq s.curOp = .softReset → s.resResetOk = !cmdStatus s.cfg.layout s.resStatus

/-- The invariant of the block. It holds at reset, and every step keeps it. -/
structure Inv (s : State) : Prop where
  /-- The configuration is one a model accepts (R57, R108). -/
  params_wf          : s.cfg.wf = true
  /-- R21. -/
  valid_iff_complete : s.resValid = true ↔ s.fsm = .complete
  /-- R17. -/
  attempt_le         : s.attempt.toNat ≤ 10
  /-- R23. -/
  resAttempts_le     : s.resAttempts.toNat ≤ 10
  /-- R19. -/
  rlen_le            : s.rlen.toNat ≤ 6
  /-- R18: `TIMER` never exceeds its largest loaded value. -/
  timer_le           : s.timer ≤ settleMsMeas * s.cfg.ticksPerMs
  /-- R82, R86: the states of an attempt are never entered with an illegal code. -/
  busy_legal         : busy s → requestCommand (decodeReq s.curOp) ≠ none
  /-- R15: `PHASE` is 1 throughout a READ_STATUS request. -/
  phase_status       : busy s → decodeReq s.curOp = .readStatus → s.phase = true
  /-- R15: while a request runs, `PHASE` is 1 only in a status read. -/
  phase_one          : busy s → s.phase = true → readsStatus (decodeReq s.curOp)
  /-- R17, R86: only the reset command of a SOFT_RESET runs with `ATTEMPT` = 0. -/
  attempt_zero       : busy s → (s.attempt = 0#4 ↔ decodeReq s.curOp = .softReset ∧ s.phase = false)
  /-- R97: a request that reads no status makes one attempt. -/
  attempt_single     : busy s → ¬ readsStatus (decodeReq s.curOp) → s.attempt = 1#4
  /-- R88, R90: the reset command has no read. -/
  read_not_reset     : s.fsm = .respRead ∨ s.fsm = .arbitrate → s.ec ≠ some .softReset
  /-- R87, R88: in `SETTLE` at most the settle ticks of the command are left. -/
  settle_le          : s.fsm = .settle → ∀ c, s.ec = some c → s.timer ≤ settleTicks s.cfg c
  /-- R76 corner case (d): the delivered length never exceeds the requested count. -/
  delivered_le       : s.fsm = .arbitrate → ∀ c, s.ec = some c → s.rlen.toNat ≤ respLen c
  /-- R22, R23, R62, R124. -/
  completed          : s.fsm = .complete → CompletedResult s

/-- R134: at the coming edge the transport meets its duty: it asserts `wr_done` only while `wr_req` = 1, and `rd_done` only
while `rd_req` = 1. A done held over from an earlier transaction breaks this at the edges in between (R149, log 13). -/
def dutyMet (s : State) : Bool :=
  (!s.pins.wrDone || s.outputs.wrReq) && (!s.pins.rdDone || s.outputs.rdReq)

/-- The run of `k` steps stays inside what the spec models: the transport meets its duty at every edge (R134, R149). -/
def runCovered : Nat → State → Bool
  | 0, _ => true
  | k + 1, s =>
    dutyMet s &&
      match step s with
      | .next t    => runCovered k t
      | .fault _   => false
      | .refused _ => false

/-- The transport answers at the coming edge what it is asked (R134). -/
def answered (s : State) : Bool := (!s.outputs.wrReq || s.pins.wrDone) && (!s.outputs.rdReq || s.pins.rdDone)

/-- For `k` edges from `s`, or for as long as the request is in progress: nobody resets the block, and the transport meets its
duty (R134): it asserts a done only while it is asked, and it leaves at most `w` edges unanswered in all. -/
def answersWithin : (k w : Nat) → State → Bool
  | 0, _, _ => true
  | k + 1, w, s =>
    if busy s then
      !s.pins.rst && dutyMet s &&
        match step s with
        | .next t    => if answered s then answersWithin k w t else decide (1 ≤ w) && answersWithin k (w - 1) t
        | .fault _   => false
        | .refused _ => false
    else true

/-- R141, what the platform does after its first reset edge and before the rules hold: at the FIRST request `P_POWERUP` edges
have passed and the sensor's address is on `cfg_dev_addr`. The block is in `IDLE` until then, so the first edge that presents a
request accepts it (R85, R86; Laws/Run.lean, `boot_first_request`). Nothing is asked of any later edge: a later request may give
another address (R33). `n` edges have passed. That the address counts at the accepting edge is DEDUCED from R33 and R142
(log 23). DESIGN CHOICE: the spec does not say from where `P_POWERUP` counts; here it counts from the first edge, the edges with
`rst` = 1 included (log 28). -/
def bootEdges (p : Params) (addr : DevAddr) : Nat → List Pins → Bool
  | _, []        => true
  | n, e :: rest =>
    if !e.rst && e.reqValid then decide (p.powerUpEdges ≤ n) && e.devAddr == addr else bootEdges p addr (n + 1) rest

/-- R141 (1), (2) and (4): the first edge is a reset, and it is the first of the `P_POWERUP` edges (log 28). The transport's
duties, (3), are `dutyMet` and `answered`. -/
def bootOk (p : Params) (addr : DevAddr) (script : List Pins) : Bool :=
  match script with
  | []        => false
  | e :: rest => e.rst && bootEdges p addr 1 rest

/-- The result registers a caller reads (R143). -/
inductive ResultReg where
  | code
  | attempts
  | tRaw
  | rhRaw
  | serial
  | status
  | resetOk
  deriving DecidableEq, Repr

/-- R143 (b): the register is one that the completed request writes (44_operations.md). -/
def writtenBy : ResultReg → Instr → Bool
  | .code, _                                                => true
  | .attempts, _                                            => true
  | .tRaw, .measHigh | .tRaw, .measMedium | .tRaw, .measLow => true
  | .rhRaw, .measHigh | .rhRaw, .measMedium | .rhRaw, .measLow => true
  | .serial, .readSerial                                    => true
  | .status, .readStatus | .status, .softReset              => true
  | .resetOk, .softReset                                    => true
  | _, _                                                    => false

/-- R143 (c): a raw word counts only with the code `OK`. -/
def codeAllows (r : ResultReg) (s : State) : Bool :=
  match r with
  | .tRaw | .rhRaw                                      => s.resCode == .ok
  | .code | .attempts | .serial | .status | .resetOk => true

/-- R143: when a caller may rely on a result register. `completedBefore` says whether a request has completed since the
last reset, which the caller knows and the block does not record. -/
def mayRely (completedBefore : Bool) (r : ResultReg) (s : State) : Bool :=
  (s.resValid || (completedBefore && s.fsm == .idle)) && writtenBy r (decodeReq s.curOp) && codeAllows r s

/-- Does the transport's answer validate as n triplets (R76 on the delivered bytes)? -/
def answerValid (n : Nat) (p : Pins) : Bool :=
  decide (3 * n ≤ p.rdLen.toNat) &&
    ([0, 1] : List (Fin 2)).all fun k => !decide (k.val < n) ||
      tripletValid (p.rdByte ⟨3 * k.val, by omega⟩) (p.rdByte ⟨3 * k.val + 1, by omega⟩) (p.rdByte ⟨3 * k.val + 2, by omega⟩)

/-- The data word of triplet k of the transport's answer, byte0 high (R40). -/
def answerWord (p : Pins) (k : Fin 2) : Word :=
  p.rdByte ⟨3 * k.val, by omega⟩ ++ p.rdByte ⟨3 * k.val + 1, by omega⟩

/-- The edges of one command write and its settle: the transport takes its time (`Tw` edges in all), then the settle
delay passes (R87, R88). -/
structure WritePart where
  wait   : List Pins
  done   : Pins
  settle : List Pins

/-- The pins of a command write, in order. -/
def WritePart.script (w : WritePart) : List Pins := w.wait ++ w.done :: w.settle

/-- The pins fit a write of command `c`: no reset, one `wr_done` at the end of the wait, and `SETTLE_TICKS` + 1 edges of
settling (R88). Every other pin is free. -/
abbrev WritePart.Fits (p : Params) (c : Cmd) (w : WritePart) : Prop :=
  (∀ e ∈ w.wait, e.rst = false ∧ e.wrDone = false) ∧ w.done.rst = false ∧ w.done.wrDone = true ∧
    w.settle.length = settleTicks p c + 1 ∧ ∀ e ∈ w.settle, e.rst = false

/-- The edges of one attempt (R43, R44): a write part, the transport's time to answer the read (`Tr` edges in all), its
answer, and the `ARBITRATE` edge. -/
structure Attempt where
  write    : WritePart
  readWait : List Pins
  readDone : Pins
  judge    : Pins

/-- The pins of one attempt, in order. -/
def Attempt.script (a : Attempt) : List Pins := a.write.script ++ (a.readWait ++ [a.readDone, a.judge])

/-- The pins fit one attempt with command `c`. The answer's bytes and length are free. -/
abbrev Attempt.Fits (p : Params) (c : Cmd) (a : Attempt) : Prop :=
  a.write.Fits p c ∧ (∀ e ∈ a.readWait, e.rst = false ∧ e.rdDone = false) ∧ a.readDone.rst = false ∧
    a.readDone.rdDone = true ∧ a.judge.rst = false

/-- The two bus transactions of an attempt (R43). -/
def attemptEvents (p : Params) (addr : DevAddr) (c : Cmd) : List BusEvent :=
  [.write addr (wireBytes (commandFrame p c)), .read addr (BitVec.ofNat 3 (respLen c))]

/-- How many edges a status attempt takes at least: one in each of `CMD_WRITE`, `RESP_READ` and `ARBITRATE`, and the settle
(R150). -/
def statusAttemptEdges (p : Params) : Nat := settleTicks p .readStatus + 4

/-- The edges after those of the current response read: the attempts a status read may still make (R91). -/
def laterEdges (s : State) (c : Cmd) : Nat :=
  if c = .readStatus then (10 - s.attempt.toNat) * statusAttemptEdges s.cfg else 0

/-- The edges after the settle of the current attempt: the read and its judgement, or for the reset command a whole status
read (R88). -/
def afterSettle (s : State) (c : Cmd) : Nat :=
  if c = .softReset then 10 * statusAttemptEdges s.cfg else 2 + laterEdges s c

/-- At most how many edges are left until `COMPLETE`, those not counted at which the transport lets the block wait (R98,
R150). -/
def edgesLeft (s : State) : Nat :=
  match s.fsm, s.ec with
  | .cmdWrite, some c  => settleTicks s.cfg c + 2 + afterSettle s c
  | .settle, some c    => s.timer + 1 + afterSettle s c
  | .respRead, some c  => 2 + laterEdges s c
  | .arbitrate, some c => 1 + laterEdges s c
  | _, _               => 0

end Sys2Proof.Safety
end

