-- ==== Sys2Proof/Certificates/Slice0/Obligations.lean ====
section
/-! DEFINITION. The statements about the model, for the provers. Rules are those of spec/. The parameters stand in
`s.cfg`, so every statement holds for every well-formed configuration (log 1). -/

open Sys2Proof Sys2Proof.Machine Sys2Proof.Safety

/-! ## Encoding -/

/-- Every well-formed request, at every value of its operand, is read back from its bytes, whatever follows them (R53, R54;
the byte that carries a code is the model's choice, log 15). -/
def Obligations.DecodeReadsBackEveryEncoding : Prop :=
  ∀ (i : Instr) (rest : List Byte), i.wf = true → decode (encode i ++ rest) = .ok (i, rest)

/-- Bytes that decode are the encoding of the request they decode to, which is well-formed, followed by what is left: no two
byte strings stand for one request, and a byte wider than 3 bits is never read (R64; log 15). -/
def Obligations.DecodedBytesAreItsEncoding : Prop :=
  ∀ (bs rest : List Byte) (i : Instr), decode bs = .ok (i, rest) → i.wf = true ∧ bs = encode i ++ rest

/-- The codes of R53, bit by bit, decode to the requests they stand for, and 6 and 7 to the illegal request (R54). That a
code stands in one byte is the model's choice (log 15). -/
def Obligations.RequestCodesDecodeAsListed : Prop :=
  decodeTableWord 8 0b000 = some .measHigh ∧ decodeTableWord 8 0b001 = some .measMedium ∧
  decodeTableWord 8 0b010 = some .measLow ∧ decodeTableWord 8 0b011 = some .readSerial ∧
  decodeTableWord 8 0b100 = some .readStatus ∧ decodeTableWord 8 0b101 = some .softReset ∧
  decodeTableWord 8 0b110 = some (.illegal 0b110#3) ∧ decodeTableWord 8 0b111 = some (.illegal 0b111#3)

/-! ## The step -/

/-- A step runs the decoded request: with `rst` = 0, the request on the caller port when it is accepted in `IDLE`, and
otherwise the request that `CUR_OP` holds; then the environment moves on to the next edge (R51, R86, R14). That a code stands in
one byte is the model's choice (log 15), and so is that a step is one edge of a request and not the whole of it (log 5). -/
def Obligations.StepRunsDecodedRequest : Prop :=
  ∀ (s : State) (i : Instr) (bs rest : List Byte), s.cfg.wf = true → s.pins.rst = false →
    decode bs = .ok (i, rest) →
    ((s.fsm = .idle ∧ s.pins.reqValid = true ∧ bs = s.pins.reqOp.setWidth 8 :: rest) ∨
      (s.fsm ≠ .idle ∧ bs = s.curOp.setWidth 8 :: rest)) →
    step s = onNext State.nextEdge (exec i s)

/-- At an edge with `rst` = 1 every register takes its value of R36, whatever the state and the other pins are; no transition
applies (R138). After it `req_ready` = 1, `rsp_valid` = 0, `wr_req` = 0 and `rd_req` = 0. -/
def Obligations.ResetEdgeSetsEveryRegister : Prop :=
  ∀ s : State, s.cfg.wf = true → s.pins.rst = true →
    ∃ t, step s = .next t ∧
      (t.fsm = .idle ∧ t.curOp = 0#3 ∧ t.phase = false ∧ t.curAddr = 0#7 ∧ t.attempt = 0#4 ∧ t.timer = 0 ∧
        t.rlen = 0#3 ∧ (∀ i, t.rbuf.get i = 0#8) ∧ t.resValid = false ∧ t.resCode = .ok ∧ t.resAttempts = 0#4 ∧
        t.resTRaw = 0#16 ∧ t.resRhRaw = 0#16 ∧ t.resSerial = 0#32 ∧ t.resStatus = 0#16 ∧ t.resResetOk = false) ∧
      (t.outputs.reqReady = true ∧ t.outputs.rspValid = false ∧ t.outputs.wrReq = false ∧ t.outputs.rdReq = false)

/-- A configuration in which two of the three measurement commands have one opcode is refused (R57): by every step, one with
`rst` = 1 included, which is the model's choice of when (log 19). The codes give no other
ground for a refusal: where the three differ, and the layout and the tick count are good, no step refuses the configuration,
whatever the codes of the other commands are. -/
def Obligations.EqualMeasurementCodesRefused : Prop :=
  (∀ s : State,
    (s.cfg.cmdCode.measHigh = s.cfg.cmdCode.measMedium ∨ s.cfg.cmdCode.measHigh = s.cfg.cmdCode.measLow ∨
      s.cfg.cmdCode.measMedium = s.cfg.cmdCode.measLow) →
    step s = .refused .illFormedConfig) ∧
  (∀ s : State, s.cfg.layout.wf = true → 1 ≤ s.cfg.ticksPerMs →
    s.cfg.cmdCode.measHigh ≠ s.cfg.cmdCode.measMedium → s.cfg.cmdCode.measHigh ≠ s.cfg.cmdCode.measLow →
    s.cfg.cmdCode.measMedium ≠ s.cfg.cmdCode.measLow → step s ≠ .refused .illFormedConfig)

/-- A layout is ill-formed, and its configuration refused, when some named field is not one bit wide or not inside bits 15:0,
when two named fields share a bit, or when some bit of the word is both reserved and named or neither (R108). That every
step refuses it, one with `rst` = 1 included, is the model's choice of when (log 19). A layout with none of these faults, whose reserved ranges are ranges of the word (log 24), is not refused. -/
def Obligations.IllFormedStatusLayoutRefused : Prop :=
  (∀ s : State,
    ((∃ r ∈ s.cfg.layout.named, r.hi ≠ r.lo ∨ 15 < r.hi) ∨
      (∃ (j k : Nat) (a b : BitRange) (n : Nat), j ≠ k ∧ s.cfg.layout.named[j]? = some a ∧
        s.cfg.layout.named[k]? = some b ∧ a.lo ≤ n ∧ n ≤ a.hi ∧ b.lo ≤ n ∧ n ≤ b.hi) ∨
      (∃ n, n ≤ 15 ∧ ¬ ((∃ r ∈ s.cfg.layout.reserved, r.lo ≤ n ∧ n ≤ r.hi) ↔
        ¬ ∃ r ∈ s.cfg.layout.named, r.lo ≤ n ∧ n ≤ r.hi))) →
    step s = .refused .illFormedConfig) ∧
  (∀ s : State, s.cfg.cmdCode.wf = true → 1 ≤ s.cfg.ticksPerMs →
    (∀ r ∈ s.cfg.layout.named, r.hi = r.lo ∧ r.hi ≤ 15) →
    (∀ (j k : Nat) (a b : BitRange), s.cfg.layout.named[j]? = some a → s.cfg.layout.named[k]? = some b → j ≠ k →
      a.lo ≠ b.lo) →
    (∀ r ∈ s.cfg.layout.reserved, r.lo ≤ r.hi ∧ r.hi ≤ 15) →
    (∀ n, n ≤ 15 → ((∃ r ∈ s.cfg.layout.reserved, r.lo ≤ n ∧ n ≤ r.hi) ↔
      ¬ ∃ r ∈ s.cfg.layout.named, r.lo ≤ n ∧ n ≤ r.hi)) →
    step s ≠ .refused .illFormedConfig)

/-- The invariant holds after reset, in the configuration that State.reset carries (logs 2, 3, 4: a well-formed one). -/
def Obligations.ResetStateMeetsInvariant : Prop := Inv State.reset

/-- Every step keeps the invariant: `RES_VALID` = 1 exactly in `COMPLETE`, the bounds of `ATTEMPT`, `RLEN` and `TIMER`, a legal
request in every state of an attempt, `PHASE` and `ATTEMPT` as that request has them, and in `COMPLETE` a result code that
fits the request (R17 to R19, R21 to R23, R62, R82, R86, R90, R97, R124). -/
def Obligations.EveryStepKeepsInvariant : Prop :=
  ∀ s t : State, Inv s → step s = .next t → Inv t

/-- The block raises no exception and takes no trap (R123): from a state that meets the invariant every step answers a next
state. -/
def Obligations.InvariantStatesAlwaysStep : Prop :=
  ∀ s : State, Inv s → ∃ t, step s = .next t

/-! ## Waiting -/

/-- `IDLE` without a request: nothing changes, for as long as no request comes (R85). -/
def Obligations.IdleWaitsWithoutBound : Prop :=
  ∀ (k : Nat) (s : State), s.cfg.wf = true → k ≤ s.script.length → s.fsm = .idle →
    (∀ p ∈ s.script.take k, p.rst = false ∧ p.reqValid = false) →
    runSteps k s = .next { s with script := s.script.drop k }

/-- A transport that does not answer makes the block stay in `CMD_WRITE`, or in `RESP_READ`, for as long as it does not: no
state has a time-out, nothing changes and nothing is reported (R94). -/
def Obligations.UnansweredTransportHangs : Prop :=
  ∀ (k : Nat) (s : State), s.cfg.wf = true → k ≤ s.script.length →
    (s.fsm = .cmdWrite ∧ (∀ p ∈ s.script.take k, p.rst = false ∧ p.wrDone = false) ∨
      s.fsm = .respRead ∧ (∀ p ∈ s.script.take k, p.rst = false ∧ p.rdDone = false)) →
    runSteps k s = .next { s with script := s.script.drop k }

/-- `COMPLETE` (R93): `rsp_valid` = 1 and `req_ready` = 0; without `rsp_ack` nothing changes, without bound; with it `RES_VALID`
falls and the block returns to `IDLE`; a request presented at the same edge is not accepted. -/
def Obligations.CompleteWaitsForAcknowledge : Prop :=
  (∀ s : State, Inv s → s.fsm = .complete → s.outputs.rspValid = true ∧ s.outputs.reqReady = false) ∧
  (∀ (k : Nat) (s : State), s.cfg.wf = true → k ≤ s.script.length → s.fsm = .complete →
    (∀ p ∈ s.script.take k, p.rst = false ∧ p.rspAck = false) →
    runSteps k s = .next { s with script := s.script.drop k }) ∧
  (∀ s : State, s.cfg.wf = true → s.fsm = .complete → s.pins.rst = false → s.pins.rspAck = true →
    step s = .next { s with resValid := false, fsm := .idle, script := s.script.tail }) ∧
  (∀ (i : Instr) (s : State), s.fsm = .complete →
    exec i s = .next (if s.pins.rspAck then { s with resValid := false, fsm := .idle } else s))

/-- The next state depends on no pin that the current state does not read: `req_valid` counts only in `IDLE`, and only a
request that is accepted has its `req_op` and `cfg_dev_addr` read; `wr_done` counts only in `CMD_WRITE`, `rd_done`, `rd_len`
and `rd_data` only in `RESP_READ`, `rsp_ack` only in `COMPLETE`; `wr_ok` counts nowhere (R32, R86, R125, R127). Two steps are compared: that both take the same
values where the spec leaves them open (undelivered bytes, raw words after a mismatch) is the model's choice, and hardware need
not (log 8). -/
def Obligations.EachStateReadsOnlyItsOwnPins : Prop :=
  ∀ (s : State) (p q : Pins) (rest : List Pins), p.rst = q.rst →
    (s.fsm = .idle → p.reqValid = q.reqValid ∧ (p.reqValid = true → p.reqOp = q.reqOp ∧ p.devAddr = q.devAddr)) →
    (s.fsm = .cmdWrite → p.wrDone = q.wrDone) →
    (s.fsm = .respRead → p.rdDone = q.rdDone ∧ (p.rdDone = true → p.rdLen = q.rdLen ∧ p.rdData = q.rdData)) →
    (s.fsm = .complete → p.rspAck = q.rspAck) →
    step { s with script := p :: rest } = step { s with script := q :: rest }

/-! ## The transitions of a request -/

/-- A request is accepted in `IDLE` at an edge with `req_valid` = 1 (R86): its code and the device address are latched; a legal
one starts with `PHASE` = 1 only for READ_STATUS and `ATTEMPT` = 0 only for SOFT_RESET; an illegal one completes at once.
No other transition reads `req_op` or `cfg_dev_addr`: two steps are compared, and that they take the same free values is the
model's choice (log 8). That an illegal request leaves `PHASE` as it was is the model's reading (log 12). -/
def Obligations.RequestAcceptedInIdle : Prop :=
  (∀ s : State, s.cfg.wf = true → s.pins.rst = false → s.fsm = .idle → s.pins.reqValid = true →
    s.outputs.reqReady = true ∧ step s = .next
      (if s.pins.reqOp = 6#3 ∨ s.pins.reqOp = 7#3 then
        { s with curOp := s.pins.reqOp, curAddr := s.pins.devAddr, attempt := 0#4, resCode := .illegalOp,
                 resAttempts := 0#4, resValid := true, fsm := .complete, script := s.script.tail }
      else
        { s with curOp := s.pins.reqOp, curAddr := s.pins.devAddr, phase := decide (s.pins.reqOp = 4#3),
                 attempt := if s.pins.reqOp = 5#3 then 0#4 else 1#4, fsm := .cmdWrite, script := s.script.tail })) ∧
  (∀ (s : State) (p : Pins) (rest : List Pins) (op : ReqCode) (addr : DevAddr), s.fsm ≠ .idle ∨ p.reqValid = false →
    step { s with script := { p with reqOp := op, devAddr := addr } :: rest } = step { s with script := p :: rest })

/-- `CMD_WRITE` (R87): `wr_req` = 1 with the latched address and the effective command's frame; `wr_done` loads the settle
ticks of that command, 15 ms for a measurement and 1 ms for any other command (R84), and starts the settle, whatever `wr_ok`
says; without it nothing changes. For every request that has a command there. -/
def Obligations.CommandWriteLoadsSettleTimer : Prop :=
  ∀ (i : Instr) (c : Cmd) (s : State), s.fsm = .cmdWrite → decodeReq s.curOp = i →
    (if s.phase then some Cmd.readStatus else requestCommand i) = some c →
    (s.outputs.wrReq = true ∧ s.outputs.wrAddr = s.curAddr ∧ s.outputs.wrData = some (cmdCode s.cfg c)) ∧
    exec i s = .next
      (if s.pins.wrDone then
        { s with timer := (if c = .measHigh ∨ c = .measMedium ∨ c = .measLow then 15 else 1) * s.cfg.ticksPerMs,
                 fsm := .settle }
      else s)

/-- `SETTLE` (R88). At one edge the timer counts down; at 0 the reset command's settle leads to the first status-read attempt,
and any other to the response read. From a loaded timer the block stays in `SETTLE` for `SETTLE_TICKS` + 1 edges. -/
def Obligations.SettleCountsDownThenReads : Prop :=
  (∀ (i : Instr) (c : Cmd) (s : State), s.fsm = .settle →
    (if s.phase then some Cmd.readStatus else requestCommand i) = some c →
    exec i s = .next
      (if s.timer ≠ 0 then { s with timer := s.timer - 1 }
      else if c = .softReset then { s with phase := true, attempt := 1#4, fsm := .cmdWrite }
      else { s with fsm := .respRead })) ∧
  (∀ (s : State) (c : Cmd), s.cfg.wf = true → s.fsm = .settle → s.ec = some c → s.timer = settleTicks s.cfg c →
    settleTicks s.cfg c + 1 ≤ s.script.length → (∀ p ∈ s.script.take (settleTicks s.cfg c + 1), p.rst = false) →
    (∀ k, k ≤ settleTicks s.cfg c → ∃ t, runSteps k s = .next t ∧ t.fsm = .settle) ∧
    ∃ t, runSteps (settleTicks s.cfg c + 1) s = .next t ∧
      t.fsm = if c = .softReset then .cmdWrite else .respRead)

/-- `RESP_READ` (R89): `rd_req` = 1 with the latched address and the response length; `rd_done` latches the delivered bytes,
clamped to the requested count, at the positions they were received in; the positions not delivered take some value, and
nothing else changes but the model's own draw counter. -/
def Obligations.ResponseReadFillsBuffer : Prop :=
  ∀ (i : Instr) (c : Cmd) (s : State), s.fsm = .respRead → decodeReq s.curOp = i →
    (if s.phase then some Cmd.readStatus else requestCommand i) = some c →
    (s.outputs.rdReq = true ∧ s.outputs.rdAddr = s.curAddr ∧ s.outputs.rdCount = some (BitVec.ofNat 3 (respLen c))) ∧
    (s.pins.rdDone = false → exec i s = .next s) ∧
    (s.pins.rdDone = true →
      ∃ (b : RBuf) (d : Nat),
        exec i s = .next { s with rlen := BitVec.ofNat 3 (min s.pins.rdLen.toNat (respLen c)), rbuf := b, draws := d,
                                  fsm := .arbitrate } ∧
        ∀ k : Fin 6, k.val < min s.pins.rdLen.toNat (respLen c) →
          b.get k = s.pins.rdData.extractLsb' (40 - 8 * k.val) 8)

/-- The measurement result write (R78), for the three measurement requests (R99, R100, R101). When 6 bytes were delivered and
both triplets validate, the two raw words are byte0 ++ byte1 of their triplets and the code is `OK`; otherwise both take some
16-bit value and the code is `CHECKSUM_MISMATCH`. No other result register is written. -/
def Obligations.MeasurementResultWritten : Prop :=
  ∀ (i : Instr) (s : State), isMeasurement i → s.fsm = .arbitrate → s.phase = false →
    (6 ≤ s.rlen.toNat ∧ crc8 (s.rbuf.get 0) (s.rbuf.get 1) = s.rbuf.get 2 ∧
        crc8 (s.rbuf.get 3) (s.rbuf.get 4) = s.rbuf.get 5 →
      exec i s = .next { s with resTRaw := s.rbuf.get 0 ++ s.rbuf.get 1, resRhRaw := s.rbuf.get 3 ++ s.rbuf.get 4,
                                resCode := .ok, resAttempts := s.attempt, resValid := true, fsm := .complete }) ∧
    (¬ (6 ≤ s.rlen.toNat ∧ crc8 (s.rbuf.get 0) (s.rbuf.get 1) = s.rbuf.get 2 ∧
        crc8 (s.rbuf.get 3) (s.rbuf.get 4) = s.rbuf.get 5) →
      ∃ (a b : Word) (d : Nat),
        exec i s = .next { s with resTRaw := a, resRhRaw := b, draws := d, resCode := .checksumMismatch,
                                  resAttempts := s.attempt, resValid := true, fsm := .complete })

/-- The serial-number result write (R79, R60): the four data bytes when 6 bytes were delivered and both triplets validate, with
`OK`; otherwise 0, with `CHECKSUM_MISMATCH`. No other result register is written. -/
def Obligations.SerialResultWritten : Prop :=
  ∀ s : State, s.fsm = .arbitrate → s.phase = false →
    exec .readSerial s = .next
      (if 6 ≤ s.rlen.toNat ∧ crc8 (s.rbuf.get 0) (s.rbuf.get 1) = s.rbuf.get 2 ∧
          crc8 (s.rbuf.get 3) (s.rbuf.get 4) = s.rbuf.get 5 then
        { s with resSerial := s.rbuf.get 0 ++ s.rbuf.get 1 ++ s.rbuf.get 3 ++ s.rbuf.get 4, resCode := .ok,
                 resAttempts := s.attempt, resValid := true, fsm := .complete }
      else
        { s with resSerial := 0#32, resCode := .checksumMismatch, resAttempts := s.attempt, resValid := true,
                 fsm := .complete })

/-- The retry decision and the status result writes (R91, R80, R104), for READ_STATUS and for the status phase of SOFT_RESET. An
attempt that validates, or the 10th, ends the request: `RES_STATUS` takes the two data bytes whether they validated or not,
the code is `OK` or `RETRY_EXHAUSTED`, and a SOFT_RESET sets `RES_RESET_OK` iff `commandStatus` is clear. An earlier failed
attempt is retried and writes no result register. -/
def Obligations.StatusAttemptEndsOrRetries : Prop :=
  ∀ (i : Instr) (s : State), (i = .readStatus ∨ i = .softReset) → s.fsm = .arbitrate → s.phase = true →
    exec i s = .next
      (if (3 ≤ s.rlen.toNat ∧ crc8 (s.rbuf.get 0) (s.rbuf.get 1) = s.rbuf.get 2) ∨ s.attempt = 10#4 then
        { s with
          resStatus := s.rbuf.get 0 ++ s.rbuf.get 1
          resResetOk :=
            if i = .softReset then
              decide (((s.rbuf.get 0 ++ s.rbuf.get 1) >>> s.cfg.layout.commandStatus.lo) &&&
                ((1#16 <<< (s.cfg.layout.commandStatus.hi - s.cfg.layout.commandStatus.lo + 1)) - 1#16) = 0#16)
            else s.resResetOk
          resCode :=
            if 3 ≤ s.rlen.toNat ∧ crc8 (s.rbuf.get 0) (s.rbuf.get 1) = s.rbuf.get 2 then .ok else .retryExhausted
          resAttempts := s.attempt, resValid := true, fsm := .complete }
      else { s with attempt := s.attempt + 1#4, fsm := .cmdWrite })

/-- A reserved request code completes at its acceptance with `ILLEGAL_OP` and `RES_ATTEMPTS` = 0; the data result registers keep
their values, and neither `wr_req` nor `rd_req` rises (R105). That `PHASE` stays as it was is the model's reading (log 12). -/
def Obligations.IllegalRequestCompletesAtOnce : Prop :=
  ∀ (code : ReqCode) (s : State), (code = 6#3 ∨ code = 7#3) → s.fsm = .idle →
    ∃ t, exec (.illegal code) s = .next t ∧
      t = { s with curOp := code, curAddr := s.pins.devAddr, attempt := 0#4, resCode := .illegalOp, resAttempts := 0#4,
                   resValid := true, fsm := .complete } ∧
      t.outputs.wrReq = false ∧ t.outputs.rdReq = false

/-- A read that delivers fewer bytes than requested fails validation, whatever bytes the buffer then holds; in a status read
that is a failed attempt, retried before the 10th (R77). For every request whose effective command has a response. -/
def Obligations.ShortReadFailsValidation : Prop :=
  ∀ (i : Instr) (c : Cmd) (s : State), s.fsm = .respRead → s.pins.rdDone = true →
    (if s.phase then some Cmd.readStatus else requestCommand i) = some c → s.pins.rdLen.toNat < respLen c →
    ∃ t, exec i s = .next t ∧ verdict (tripletCount c) t = false ∧
      (c = .readStatus → t.attempt ≠ 10#4 →
        exec i t = .next { t with attempt := t.attempt + 1#4, fsm := .cmdWrite })

/-! ## What no step changes -/

/-- A request's edge leaves every register unchanged but those its transition writes (R95): per state of the machine, which
registers, parameters and pins stay as they were. For every request. -/
def Obligations.RequestEdgeFrame : Prop :=
  ∀ (i : Instr) (s t : State), exec i s = .next t →
    (t.cfg = s.cfg ∧ t.script = s.script) ∧
    (s.fsm ≠ .idle → t.curOp = s.curOp ∧ t.curAddr = s.curAddr) ∧
    (s.fsm ≠ .idle → s.fsm ≠ .settle → t.phase = s.phase) ∧
    (s.fsm ≠ .idle → s.fsm ≠ .settle → s.fsm ≠ .arbitrate → t.attempt = s.attempt) ∧
    (s.fsm ≠ .cmdWrite → s.fsm ≠ .settle → t.timer = s.timer) ∧
    (s.fsm ≠ .respRead → t.rlen = s.rlen ∧ t.rbuf = s.rbuf) ∧
    (s.fsm ≠ .idle → s.fsm ≠ .arbitrate → t.resCode = s.resCode ∧ t.resAttempts = s.resAttempts) ∧
    (s.fsm ≠ .idle → s.fsm ≠ .arbitrate → s.fsm ≠ .complete → t.resValid = s.resValid) ∧
    (s.fsm ≠ .arbitrate → t.resTRaw = s.resTRaw ∧ t.resRhRaw = s.resRhRaw ∧ t.resSerial = s.resSerial ∧
      t.resStatus = s.resStatus ∧ t.resResetOk = s.resResetOk)

/-- The result registers hold (R30): from one completion to the next, or a reset, each keeps its value; a completion writes only
the registers its request names; accepting a request clears none, and while a request runs `RES_VALID` = 0. -/
def Obligations.ResultRegistersHold : Prop :=
  ∀ s t : State, Inv s → step s = .next t → s.pins.rst = false →
    (¬ (s.fsm ≠ .complete ∧ t.fsm = .complete) →
      t.resCode = s.resCode ∧ t.resAttempts = s.resAttempts ∧ t.resTRaw = s.resTRaw ∧ t.resRhRaw = s.resRhRaw ∧
      t.resSerial = s.resSerial ∧ t.resStatus = s.resStatus ∧ t.resResetOk = s.resResetOk) ∧
    (¬ isMeasurement (decodeReq t.curOp) → t.resTRaw = s.resTRaw ∧ t.resRhRaw = s.resRhRaw) ∧
    (decodeReq t.curOp ≠ .readSerial → t.resSerial = s.resSerial) ∧
    (decodeReq t.curOp ≠ .readStatus → decodeReq t.curOp ≠ .softReset → t.resStatus = s.resStatus) ∧
    (decodeReq t.curOp ≠ .softReset → t.resResetOk = s.resResetOk) ∧
    (t.fsm ≠ .complete → t.resValid = false)

/-- `CUR_OP` is written only when a request is accepted, and held until the next acceptance (R14); so is `CUR_ADDR` (R16). A
reset sets both. -/
def Obligations.RequestLatchedUntilNextAcceptance : Prop :=
  ∀ s t : State, step s = .next t → s.pins.rst = false →
    (s.fsm = .idle ∧ s.pins.reqValid = true → t.curOp = s.pins.reqOp ∧ t.curAddr = s.pins.devAddr) ∧
    (¬ (s.fsm = .idle ∧ s.pins.reqValid = true) → t.curOp = s.curOp ∧ t.curAddr = s.curAddr)

/-- Only a read completion writes the response buffer and the delivered length; a reset clears them (R20, R19). Nothing writes
the parameters (R11). -/
def Obligations.OnlyReadCompletionWritesBuffer : Prop :=
  ∀ s t : State, step s = .next t →
    t.cfg = s.cfg ∧
    (s.pins.rst = false → ¬ (s.fsm = .respRead ∧ s.pins.rdDone = true) → t.rbuf = s.rbuf ∧ t.rlen = s.rlen)

/-! ## Ordering -/

/-- Each state of the machine is entered only from the states, and under the conditions, of the transition table (R95, R48,
R49): so a response read is requested only after the settle has ended, a settle begins only when the write has ended, a
result appears only after arbitration or for an illegal request, and `IDLE` is reached only by the acknowledgement. -/
def Obligations.StatesEnteredInProtocolOrder : Prop :=
  ∀ s t : State, step s = .next t → s.pins.rst = false → t.fsm ≠ s.fsm →
    (t.fsm = .cmdWrite → (s.fsm = .idle ∧ s.pins.reqValid = true ∧ s.pins.reqOp.toNat ≤ 5) ∨
      (s.fsm = .settle ∧ s.timer = 0 ∧ s.ec = some .softReset) ∨
      (s.fsm = .arbitrate ∧ s.ec = some .readStatus ∧ verdict 1 s = false ∧ s.attempt ≠ 10#4)) ∧
    (t.fsm = .settle → s.fsm = .cmdWrite ∧ s.pins.wrDone = true) ∧
    (t.fsm = .respRead → s.fsm = .settle ∧ s.timer = 0 ∧ s.ec ≠ some .softReset) ∧
    (t.fsm = .arbitrate → s.fsm = .respRead ∧ s.pins.rdDone = true) ∧
    (t.fsm = .complete →
      (s.fsm = .arbitrate ∧
        (s.ec = some .measHigh ∨ s.ec = some .measMedium ∨ s.ec = some .measLow ∨ s.ec = some .readSerial ∨
          (s.ec = some .readStatus ∧ (verdict 1 s = true ∨ s.attempt = 10#4)))) ∨
      (s.fsm = .idle ∧ s.pins.reqValid = true ∧ (s.pins.reqOp = 6#3 ∨ s.pins.reqOp = 7#3))) ∧
    (t.fsm = .idle → s.fsm = .complete ∧ s.pins.rspAck = true)

/-- What goes over the bus (R38, R43): a write carries the effective command's code as exactly two bytes, the high byte first,
and a read requests exactly the response length of the effective command, which is 3 or 6; both use the latched address. -/
def Obligations.BusTransactionsWellFormed : Prop :=
  ∀ (s : State) (e : BusEvent), Inv s → s.busEvent = some e →
    ∃ c, s.ec = some c ∧
      ((e = .write s.curAddr [(cmdCode s.cfg c).extractLsb' 8 8, (cmdCode s.cfg c).extractLsb' 0 8] ∧ s.fsm = .cmdWrite) ∨
        (e = .read s.curAddr (BitVec.ofNat 3 (respLen c)) ∧ s.fsm = .respRead ∧ (respLen c = 3 ∨ respLen c = 6)))

/-! ## Whole requests -/

/-- A measurement request from acceptance to `COMPLETE` (R99, R100, R101), for any waiting times of the transport and any
answer: exactly one write of the request's command and one read of 6 bytes, no retry (R97), over the edges of R150. It
completes with `OK` and the two words of the answer when the answer validates, and with `CHECKSUM_MISMATCH` otherwise. -/
def Obligations.MeasurementRequestRuns : Prop :=
  ∀ (i : Instr) (c : Cmd) (s : State) (p : Pins) (a : Attempt) (rest : List Pins),
    isMeasurement i → requestCommand i = some c → s.cfg.wf = true → s.fsm = .idle →
    p.rst = false → p.reqValid = true → p.reqOp = encodeReq i → a.Fits s.cfg c →
    s.script = p :: (a.script ++ rest) →
    ∃ t, runSteps (1 + a.script.length) s = .next t ∧
      busTrace (1 + a.script.length) s = attemptEvents s.cfg p.devAddr c ∧
      t.fsm = .complete ∧ t.resValid = true ∧ t.resAttempts = 1#4 ∧ t.script = rest ∧
      (answerValid 2 a.readDone = true →
        t.resCode = .ok ∧ t.resTRaw = answerWord a.readDone 0 ∧ t.resRhRaw = answerWord a.readDone 1) ∧
      (answerValid 2 a.readDone = false → t.resCode = .checksumMismatch) ∧
      t.resSerial = s.resSerial ∧ t.resStatus = s.resStatus ∧ t.resResetOk = s.resResetOk ∧ t.cfg = s.cfg

/-- A READ_SERIAL request from acceptance to `COMPLETE` (R102), for any waiting times of the transport and any answer: exactly
one write and one read of 6 bytes, no retry. An answer in which some checksum differs, or a short one, gives 0 and
`CHECKSUM_MISMATCH`, whatever the data bytes are (R81). -/
def Obligations.SerialRequestRuns : Prop :=
  ∀ (s : State) (p : Pins) (a : Attempt) (rest : List Pins),
    s.cfg.wf = true → s.fsm = .idle →
    p.rst = false → p.reqValid = true → p.reqOp = 0b011#3 → a.Fits s.cfg .readSerial →
    s.script = p :: (a.script ++ rest) →
    ∃ t, runSteps (1 + a.script.length) s = .next t ∧
      busTrace (1 + a.script.length) s = attemptEvents s.cfg p.devAddr .readSerial ∧
      t.fsm = .complete ∧ t.resValid = true ∧ t.resAttempts = 1#4 ∧ t.script = rest ∧
      (answerValid 2 a.readDone = true →
        t.resCode = .ok ∧ t.resSerial = answerWord a.readDone 0 ++ answerWord a.readDone 1) ∧
      (answerValid 2 a.readDone = false → t.resCode = .checksumMismatch ∧ t.resSerial = 0#32) ∧
      t.resTRaw = s.resTRaw ∧ t.resRhRaw = s.resRhRaw ∧ t.resStatus = s.resStatus ∧ t.resResetOk = s.resResetOk ∧
      t.cfg = s.cfg

/-- A READ_STATUS request from acceptance to `COMPLETE` (R103, R96): the attempts before the last fail and the last validates or
is the 10th. Exactly as many write/read cycles happen as there are attempts, and `RES_ATTEMPTS` counts them. The code is
`OK` when the last attempt validated and `RETRY_EXHAUSTED` otherwise. `RES_STATUS` holds the last attempt's data bytes, in
the positions that were delivered. -/
def Obligations.StatusRequestRetriesUpToTen : Prop :=
  ∀ (s : State) (p : Pins) (failed : List Attempt) (last : Attempt) (rest : List Pins),
    s.cfg.wf = true → s.fsm = .idle →
    p.rst = false → p.reqValid = true → p.reqOp = 0b100#3 →
    (∀ a ∈ failed, a.Fits s.cfg .readStatus ∧ answerValid 1 a.readDone = false) → last.Fits s.cfg .readStatus →
    failed.length ≤ 9 → (answerValid 1 last.readDone = true ∨ failed.length = 9) →
    s.script = p :: (failed.flatMap Attempt.script ++ (last.script ++ rest)) →
    ∃ t n, n = 1 + (failed.flatMap Attempt.script).length + last.script.length ∧ runSteps n s = .next t ∧
      busTrace n s = (List.replicate (failed.length + 1) (attemptEvents s.cfg p.devAddr .readStatus)).flatten ∧
      t.fsm = .complete ∧ t.resValid = true ∧ t.resAttempts = BitVec.ofNat 4 (failed.length + 1) ∧ t.script = rest ∧
      t.resCode = (if answerValid 1 last.readDone then ResCode.ok else ResCode.retryExhausted) ∧
      (1 ≤ last.readDone.rdLen.toNat → t.resStatus.extractLsb' 8 8 = last.readDone.rdByte 0) ∧
      (2 ≤ last.readDone.rdLen.toNat → t.resStatus.extractLsb' 0 8 = last.readDone.rdByte 1) ∧
      t.resTRaw = s.resTRaw ∧ t.resRhRaw = s.resRhRaw ∧ t.resSerial = s.resSerial ∧ t.resResetOk = s.resResetOk ∧
      t.cfg = s.cfg

/-- A SOFT_RESET request from acceptance to `COMPLETE` (R104, R140): one write of the reset command with its settle and no read,
then the status read with its retries. `RES_ATTEMPTS` counts the status attempts only. `RES_RESET_OK` is 1 exactly when
`commandStatus` of the final status word is clear, validated or not. The block is not reset: the other result registers
keep their values. -/
def Obligations.SoftResetRequestRuns : Prop :=
  ∀ (s : State) (p : Pins) (w : WritePart) (failed : List Attempt) (last : Attempt) (rest : List Pins),
    s.cfg.wf = true → s.fsm = .idle →
    p.rst = false → p.reqValid = true → p.reqOp = 0b101#3 → w.Fits s.cfg .softReset →
    (∀ a ∈ failed, a.Fits s.cfg .readStatus ∧ answerValid 1 a.readDone = false) → last.Fits s.cfg .readStatus →
    failed.length ≤ 9 → (answerValid 1 last.readDone = true ∨ failed.length = 9) →
    s.script = p :: (w.script ++ (failed.flatMap Attempt.script ++ (last.script ++ rest))) →
    ∃ t n, n = 1 + w.script.length + (failed.flatMap Attempt.script).length + last.script.length ∧
      runSteps n s = .next t ∧
      busTrace n s = .write p.devAddr (wireBytes (commandFrame s.cfg .softReset)) ::
        (List.replicate (failed.length + 1) (attemptEvents s.cfg p.devAddr .readStatus)).flatten ∧
      t.fsm = .complete ∧ t.resValid = true ∧ t.resAttempts = BitVec.ofNat 4 (failed.length + 1) ∧ t.script = rest ∧
      t.resCode = (if answerValid 1 last.readDone then ResCode.ok else ResCode.retryExhausted) ∧
      (1 ≤ last.readDone.rdLen.toNat → t.resStatus.extractLsb' 8 8 = last.readDone.rdByte 0) ∧
      (2 ≤ last.readDone.rdLen.toNat → t.resStatus.extractLsb' 0 8 = last.readDone.rdByte 1) ∧
      t.resResetOk = !cmdStatus s.cfg.layout t.resStatus ∧
      t.resTRaw = s.resTRaw ∧ t.resRhRaw = s.resRhRaw ∧ t.resSerial = s.resSerial ∧ t.cfg = s.cfg

/-- Every request reaches `COMPLETE` when the transport answers and the clock runs (R98). An edge at which the transport answers
what it is asked, if anything, completes the request or brings it nearer to completion. So from any state of a request in
progress, with a transport that meets its duty (R134) and leaves `w` edges unanswered in all, the request completes within the
edges that R150 gives for the rest of it and `w` more. -/
def Obligations.AnsweredRequestReachesComplete : Prop :=
  (∀ s : State, Inv s → busy s → s.pins.rst = false → (s.fsm = .cmdWrite → s.pins.wrDone = true) →
    (s.fsm = .respRead → s.pins.rdDone = true) →
    ∃ t, step s = .next t ∧ (t.fsm = .complete ∨ (busy t ∧ edgesLeft t < edgesLeft s))) ∧
  (∀ (s : State) (w : Nat), Inv s → busy s → edgesLeft s + w ≤ s.script.length →
    answersWithin (edgesLeft s + w) w s = true →
    ∃ k t, 1 ≤ k ∧ k ≤ edgesLeft s + w ∧ runSteps k s = .next t ∧ t.fsm = .complete)

/-! ## The checksum -/

/-- The table form of the CRC, with the table that the spec prints, agrees with the bit form on all data (R71). -/
def Obligations.CrcTableFormAgrees : Prop :=
  ∀ b0 b1 : Byte, crc8 b0 b1 = crc8Table b0 b1

/-- A triplet is valid exactly when the CRC over its three bytes is 0 (R73, R72). -/
def Obligations.TripletValidIffResidueZero : Prop :=
  ∀ b0 b1 c : Byte, tripletValid b0 b1 c = true ↔ crcOf [b0, b1, c] = 0#8

/-- Error detection (R74): whether an error pattern passes does not depend on the triplet it hits; every pattern that passes has
even weight, at least 4, and spans at least 9 bits, so every error of 1, 2 or 3 bits, of odd weight, or confined to 8
consecutive bits is rejected; and 0x000131 is one that passes. -/
def Obligations.ValidatorRejectsSmallErrors : Prop :=
  (∀ t u e : BitVec 24, tripletValid24 t = true → tripletValid24 u = true →
    (tripletValid24 (t ^^^ e) = true ↔ tripletValid24 (u ^^^ e) = true)) ∧
  (∀ t e : BitVec 24, tripletValid24 t = true → e ≠ 0#24 → tripletValid24 (t ^^^ e) = true →
    weight24 e % 2 = 0 ∧ 4 ≤ weight24 e ∧
      ∀ k : Nat, e &&& ~~~ (0xFF#24 <<< k) ≠ 0#24) ∧
  (∀ t : BitVec 24, tripletValid24 t = true → tripletValid24 (t ^^^ 0x000131#24) = true)

/-! ## The status word -/

/-- The accessor of a status field (R109): under a well-formed layout every field is the bits `hi:lo` of the word, so that a named
flag is its one bit. -/
def Obligations.StatusFieldsAreBitRanges : Prop :=
  ∀ (l : StatusLayout) (S : Word), l.wf = true →
    (∀ r ∈ l.named, flag r S = S.getLsbD r.lo) ∧
    (∀ r ∈ l.named ++ l.reserved, ∀ k : Nat,
      (readField r S).getLsbD k = (decide (k ≤ r.hi - r.lo) && S.getLsbD (r.lo + k)))

/-- The outputs `st_*` under the layout that the spec gives as its default (R107, R110 to R117). That layout is general
knowledge (PRESUMED, log 3), so it stands as a hypothesis: the statement says nothing about another layout. The value of
each output is that of R110 to R117, and its width is that of R31: 1 bit, or the reserved field's own. That the four reserved ones
stand in one list, each beside its bit range, in the order of R117's text, is the model's choice (DESIGN CHOICE, log 27). -/
def Obligations.DefaultLayoutOutputs : Prop :=
  ∀ s : State, s.cfg.layout = StatusLayout.sht3x →
    s.outputs.st =
      { writeCrc := s.resStatus.getLsbD 0, cmd := s.resStatus.getLsbD 1, resetDetected := s.resStatus.getLsbD 4,
        tAlert := s.resStatus.getLsbD 10, rhAlert := s.resStatus.getLsbD 11, heater := s.resStatus.getLsbD 13,
        alertPending := s.resStatus.getLsbD 15,
        reserved := [⟨⟨14, 14⟩, s.resStatus.extractLsb' 14 1⟩, ⟨⟨12, 12⟩, s.resStatus.extractLsb' 12 1⟩,
                     ⟨⟨9, 5⟩, s.resStatus.extractLsb' 5 5⟩, ⟨⟨3, 2⟩, s.resStatus.extractLsb' 2 2⟩] }

/-! ## Parameters, results, host reference -/

/-- `TIMER_W` (R5, R18): the settle ticks of every command, those of 15 ms for a measurement and of 1 ms for any other command
(R84), fit the timer's width, which is the least that holds 15 ms. -/
def Obligations.SettleTicksFitTimerWidth : Prop :=
  ∀ p : Params, p.wf = true →
    (∀ c : Cmd, settleTicks p c = (if c = .measHigh ∨ c = .measMedium ∨ c = .measLow then 15 else 1) * p.ticksPerMs ∧
      settleTicks p c < 2 ^ timerWidth p) ∧ ∀ w : Nat, 15 * p.ticksPerMs < 2 ^ w → timerWidth p ≤ w

/-- When a caller may rely on a result register (R143): at the edge that completes a request, a raw word it may rely on is the
data word of a response that validated, a serial number it may rely on is 0 or the four data bytes of a validated response,
as `RES_CODE` tells (R144), and a status word it may rely on is the last response's data word. -/
def Obligations.ReliableResultsAreTheResponses : Prop :=
  ∀ (s t : State) (known : Bool), Inv s → s.pins.rst = false → s.fsm = .arbitrate → step s = .next t → t.fsm = .complete →
    (mayRely known .tRaw t = true → verdict 2 s = true ∧ t.resTRaw = s.rbuf.get 0 ++ s.rbuf.get 1) ∧
    (mayRely known .rhRaw t = true → verdict 2 s = true ∧ t.resRhRaw = s.rbuf.get 3 ++ s.rbuf.get 4) ∧
    (mayRely known .serial t = true →
      (t.resCode = .ok ∧ verdict 2 s = true ∧
        t.resSerial = s.rbuf.get 0 ++ s.rbuf.get 1 ++ s.rbuf.get 3 ++ s.rbuf.get 4) ∨
      (t.resCode = .checksumMismatch ∧ verdict 2 s = false ∧ t.resSerial = 0#32)) ∧
    (mayRely known .status t = true →
      t.resStatus = s.rbuf.get 0 ++ s.rbuf.get 1 ∧ (t.resCode = .ok ↔ verdict 1 s = true))

/-- The host's reference conversions (R122): strictly increasing in the raw word, with the exact boundary values. -/
def Obligations.ReferenceConversionsIncrease : Prop :=
  (∀ a b : Word, a < b → temperatureC a < temperatureC b ∧ humidityPct a < humidityPct b) ∧
  temperatureC 0x0000#16 = -45 ∧ temperatureC 0xFFFF#16 = 130 ∧
  humidityPct 0x0000#16 = 0 ∧ humidityPct 0xFFFF#16 = 100 ∧
  temperatureF (temperatureC 0x0000#16) = -49 ∧ temperatureF (temperatureC 0xFFFF#16) = 266

/-! ## Outputs and phase -/

/-- The outputs (R35): each is its register, or a function of the registers alone. `res_code` shows the 2-bit values of R62. The
frame and the requested count are those of the command that the current attempt sends (R82, R83); that they are present as
`some` is the model's form (DESIGN CHOICE, log 20). Each named `st_*` output is the field of that name under the layout, and each
reserved output is the bits `hi:lo` of its range, `hi-lo+1` bits wide (R31, R109). That there is one for each reserved range of the
layout, beside that range, in the order of the layout's list, is the model's choice and no rule's (DESIGN CHOICE, log 27). -/
def Obligations.OutputsAreTheRegisters : Prop :=
  ∀ s : State,
    (s.outputs.reqReady = decide (s.fsm = .idle) ∧ s.outputs.rspValid = s.resValid ∧
      s.outputs.wrReq = decide (s.fsm = .cmdWrite) ∧ s.outputs.rdReq = decide (s.fsm = .respRead) ∧
      s.outputs.wrAddr = s.curAddr ∧ s.outputs.rdAddr = s.curAddr) ∧
    ((s.resCode = .ok → s.outputs.resCode = 0#2) ∧ (s.resCode = .checksumMismatch → s.outputs.resCode = 1#2) ∧
      (s.resCode = .retryExhausted → s.outputs.resCode = 2#2) ∧ (s.resCode = .illegalOp → s.outputs.resCode = 3#2)) ∧
    (s.outputs.resAttempts = s.resAttempts ∧ s.outputs.resTRaw = s.resTRaw ∧ s.outputs.resRhRaw = s.resRhRaw ∧
      s.outputs.resSerial = s.resSerial ∧ s.outputs.resStatus = s.resStatus ∧ s.outputs.resResetOk = s.resResetOk) ∧
    ((s.phase = true ∨ s.curOp = 4#3 →
        s.outputs.wrData = some s.cfg.cmdCode.readStatus ∧ s.outputs.rdCount = some 3#3) ∧
      (s.phase = false → s.curOp = 0#3 →
        s.outputs.wrData = some s.cfg.cmdCode.measHigh ∧ s.outputs.rdCount = some 6#3) ∧
      (s.phase = false → s.curOp = 1#3 →
        s.outputs.wrData = some s.cfg.cmdCode.measMedium ∧ s.outputs.rdCount = some 6#3) ∧
      (s.phase = false → s.curOp = 2#3 →
        s.outputs.wrData = some s.cfg.cmdCode.measLow ∧ s.outputs.rdCount = some 6#3) ∧
      (s.phase = false → s.curOp = 3#3 →
        s.outputs.wrData = some s.cfg.cmdCode.readSerial ∧ s.outputs.rdCount = some 6#3) ∧
      (s.phase = false → s.curOp = 5#3 →
        s.outputs.wrData = some s.cfg.cmdCode.softReset ∧ s.outputs.rdCount = some 0#3)) ∧
    (s.outputs.st.writeCrc = flag s.cfg.layout.writeCrcStatus s.resStatus ∧
      s.outputs.st.cmd = flag s.cfg.layout.commandStatus s.resStatus ∧
      s.outputs.st.resetDetected = flag s.cfg.layout.systemResetDetected s.resStatus ∧
      s.outputs.st.tAlert = flag s.cfg.layout.tAlert s.resStatus ∧
      s.outputs.st.rhAlert = flag s.cfg.layout.rhAlert s.resStatus ∧
      s.outputs.st.heater = flag s.cfg.layout.heaterStatus s.resStatus ∧
      s.outputs.st.alertPending = flag s.cfg.layout.alertPending s.resStatus ∧
      s.outputs.st.reserved = s.cfg.layout.reserved.map fun r => ⟨r, s.resStatus.extractLsb' r.lo (r.hi - r.lo + 1)⟩)

/-- `PHASE` (R15): a step that leaves a request in progress leaves `PHASE` = 1 exactly in a READ_STATUS request and in the status
attempts of a SOFT_RESET, which are those from the first attempt on; `PHASE` = 0 in every other request. An illegal request is
never in progress: it ends at its acceptance edge (log 12). -/
def Obligations.PhaseFollowsTheRequest : Prop :=
  ∀ s t : State, Inv s → step s = .next t →
    (busy t → (t.phase = true ↔
      decodeReq t.curOp = .readStatus ∨ (decodeReq t.curOp = .softReset ∧ 1 ≤ t.attempt.toNat))) ∧
    (busy t → t.curOp ≠ 6#3 ∧ t.curOp ≠ 7#3)
end

