-- ==== Sys2Proof/Laws/State.lean ====
section
/-! SUPPORT. What each register update does to each field of State: one lemma per field per update. Later proofs use these and
never unfold an update. -/

namespace Sys2Proof.Machine

variable (s : State)

section Latch
variable (op : ReqCode) (addr : DevAddr)
@[simp] theorem latch_fsm : (s.latch op addr).fsm = s.fsm := rfl
@[simp] theorem latch_curOp : (s.latch op addr).curOp = op := rfl
@[simp] theorem latch_phase : (s.latch op addr).phase = s.phase := rfl
@[simp] theorem latch_curAddr : (s.latch op addr).curAddr = addr := rfl
@[simp] theorem latch_attempt : (s.latch op addr).attempt = s.attempt := rfl
@[simp] theorem latch_timer : (s.latch op addr).timer = s.timer := rfl
@[simp] theorem latch_rlen : (s.latch op addr).rlen = s.rlen := rfl
@[simp] theorem latch_rbuf : (s.latch op addr).rbuf = s.rbuf := rfl
@[simp] theorem latch_resValid : (s.latch op addr).resValid = s.resValid := rfl
@[simp] theorem latch_resCode : (s.latch op addr).resCode = s.resCode := rfl
@[simp] theorem latch_resAttempts : (s.latch op addr).resAttempts = s.resAttempts := rfl
@[simp] theorem latch_resTRaw : (s.latch op addr).resTRaw = s.resTRaw := rfl
@[simp] theorem latch_resRhRaw : (s.latch op addr).resRhRaw = s.resRhRaw := rfl
@[simp] theorem latch_resSerial : (s.latch op addr).resSerial = s.resSerial := rfl
@[simp] theorem latch_resStatus : (s.latch op addr).resStatus = s.resStatus := rfl
@[simp] theorem latch_resResetOk : (s.latch op addr).resResetOk = s.resResetOk := rfl
@[simp] theorem latch_cfg : (s.latch op addr).cfg = s.cfg := rfl
@[simp] theorem latch_draws : (s.latch op addr).draws = s.draws := rfl
@[simp] theorem latch_script : (s.latch op addr).script = s.script := rfl
end Latch

section BeginAttempts
variable (ph : Bool) (n : BitVec 4)
@[simp] theorem beginAttempts_fsm : (s.beginAttempts ph n).fsm = .cmdWrite := rfl
@[simp] theorem beginAttempts_curOp : (s.beginAttempts ph n).curOp = s.curOp := rfl
@[simp] theorem beginAttempts_phase : (s.beginAttempts ph n).phase = ph := rfl
@[simp] theorem beginAttempts_curAddr : (s.beginAttempts ph n).curAddr = s.curAddr := rfl
@[simp] theorem beginAttempts_attempt : (s.beginAttempts ph n).attempt = n := rfl
@[simp] theorem beginAttempts_timer : (s.beginAttempts ph n).timer = s.timer := rfl
@[simp] theorem beginAttempts_rlen : (s.beginAttempts ph n).rlen = s.rlen := rfl
@[simp] theorem beginAttempts_rbuf : (s.beginAttempts ph n).rbuf = s.rbuf := rfl
@[simp] theorem beginAttempts_resValid : (s.beginAttempts ph n).resValid = s.resValid := rfl
@[simp] theorem beginAttempts_resCode : (s.beginAttempts ph n).resCode = s.resCode := rfl
@[simp] theorem beginAttempts_resAttempts : (s.beginAttempts ph n).resAttempts = s.resAttempts := rfl
@[simp] theorem beginAttempts_resTRaw : (s.beginAttempts ph n).resTRaw = s.resTRaw := rfl
@[simp] theorem beginAttempts_resRhRaw : (s.beginAttempts ph n).resRhRaw = s.resRhRaw := rfl
@[simp] theorem beginAttempts_resSerial : (s.beginAttempts ph n).resSerial = s.resSerial := rfl
@[simp] theorem beginAttempts_resStatus : (s.beginAttempts ph n).resStatus = s.resStatus := rfl
@[simp] theorem beginAttempts_resResetOk : (s.beginAttempts ph n).resResetOk = s.resResetOk := rfl
@[simp] theorem beginAttempts_cfg : (s.beginAttempts ph n).cfg = s.cfg := rfl
@[simp] theorem beginAttempts_draws : (s.beginAttempts ph n).draws = s.draws := rfl
@[simp] theorem beginAttempts_script : (s.beginAttempts ph n).script = s.script := rfl
end BeginAttempts

section Retry
@[simp] theorem retry_fsm : s.retry.fsm = .cmdWrite := rfl
@[simp] theorem retry_curOp : s.retry.curOp = s.curOp := rfl
@[simp] theorem retry_phase : s.retry.phase = s.phase := rfl
@[simp] theorem retry_curAddr : s.retry.curAddr = s.curAddr := rfl
@[simp] theorem retry_attempt : s.retry.attempt = s.attempt + 1#4 := rfl
@[simp] theorem retry_timer : s.retry.timer = s.timer := rfl
@[simp] theorem retry_rlen : s.retry.rlen = s.rlen := rfl
@[simp] theorem retry_rbuf : s.retry.rbuf = s.rbuf := rfl
@[simp] theorem retry_resValid : s.retry.resValid = s.resValid := rfl
@[simp] theorem retry_resCode : s.retry.resCode = s.resCode := rfl
@[simp] theorem retry_resAttempts : s.retry.resAttempts = s.resAttempts := rfl
@[simp] theorem retry_resTRaw : s.retry.resTRaw = s.resTRaw := rfl
@[simp] theorem retry_resRhRaw : s.retry.resRhRaw = s.resRhRaw := rfl
@[simp] theorem retry_resSerial : s.retry.resSerial = s.resSerial := rfl
@[simp] theorem retry_resStatus : s.retry.resStatus = s.resStatus := rfl
@[simp] theorem retry_resResetOk : s.retry.resResetOk = s.resResetOk := rfl
@[simp] theorem retry_cfg : s.retry.cfg = s.cfg := rfl
@[simp] theorem retry_draws : s.retry.draws = s.draws := rfl
@[simp] theorem retry_script : s.retry.script = s.script := rfl
end Retry

section NoAttempt
@[simp] theorem noAttempt_fsm : s.noAttempt.fsm = s.fsm := rfl
@[simp] theorem noAttempt_curOp : s.noAttempt.curOp = s.curOp := rfl
@[simp] theorem noAttempt_phase : s.noAttempt.phase = s.phase := rfl
@[simp] theorem noAttempt_curAddr : s.noAttempt.curAddr = s.curAddr := rfl
@[simp] theorem noAttempt_attempt : s.noAttempt.attempt = 0#4 := rfl
@[simp] theorem noAttempt_timer : s.noAttempt.timer = s.timer := rfl
@[simp] theorem noAttempt_rlen : s.noAttempt.rlen = s.rlen := rfl
@[simp] theorem noAttempt_rbuf : s.noAttempt.rbuf = s.rbuf := rfl
@[simp] theorem noAttempt_resValid : s.noAttempt.resValid = s.resValid := rfl
@[simp] theorem noAttempt_resCode : s.noAttempt.resCode = s.resCode := rfl
@[simp] theorem noAttempt_resAttempts : s.noAttempt.resAttempts = s.resAttempts := rfl
@[simp] theorem noAttempt_resTRaw : s.noAttempt.resTRaw = s.resTRaw := rfl
@[simp] theorem noAttempt_resRhRaw : s.noAttempt.resRhRaw = s.resRhRaw := rfl
@[simp] theorem noAttempt_resSerial : s.noAttempt.resSerial = s.resSerial := rfl
@[simp] theorem noAttempt_resStatus : s.noAttempt.resStatus = s.resStatus := rfl
@[simp] theorem noAttempt_resResetOk : s.noAttempt.resResetOk = s.resResetOk := rfl
@[simp] theorem noAttempt_cfg : s.noAttempt.cfg = s.cfg := rfl
@[simp] theorem noAttempt_draws : s.noAttempt.draws = s.draws := rfl
@[simp] theorem noAttempt_script : s.noAttempt.script = s.script := rfl
end NoAttempt

section LoadTimer
variable (n : Nat)
@[simp] theorem loadTimer_fsm : (s.loadTimer n).fsm = .settle := rfl
@[simp] theorem loadTimer_curOp : (s.loadTimer n).curOp = s.curOp := rfl
@[simp] theorem loadTimer_phase : (s.loadTimer n).phase = s.phase := rfl
@[simp] theorem loadTimer_curAddr : (s.loadTimer n).curAddr = s.curAddr := rfl
@[simp] theorem loadTimer_attempt : (s.loadTimer n).attempt = s.attempt := rfl
@[simp] theorem loadTimer_timer : (s.loadTimer n).timer = n := rfl
@[simp] theorem loadTimer_rlen : (s.loadTimer n).rlen = s.rlen := rfl
@[simp] theorem loadTimer_rbuf : (s.loadTimer n).rbuf = s.rbuf := rfl
@[simp] theorem loadTimer_resValid : (s.loadTimer n).resValid = s.resValid := rfl
@[simp] theorem loadTimer_resCode : (s.loadTimer n).resCode = s.resCode := rfl
@[simp] theorem loadTimer_resAttempts : (s.loadTimer n).resAttempts = s.resAttempts := rfl
@[simp] theorem loadTimer_resTRaw : (s.loadTimer n).resTRaw = s.resTRaw := rfl
@[simp] theorem loadTimer_resRhRaw : (s.loadTimer n).resRhRaw = s.resRhRaw := rfl
@[simp] theorem loadTimer_resSerial : (s.loadTimer n).resSerial = s.resSerial := rfl
@[simp] theorem loadTimer_resStatus : (s.loadTimer n).resStatus = s.resStatus := rfl
@[simp] theorem loadTimer_resResetOk : (s.loadTimer n).resResetOk = s.resResetOk := rfl
@[simp] theorem loadTimer_cfg : (s.loadTimer n).cfg = s.cfg := rfl
@[simp] theorem loadTimer_draws : (s.loadTimer n).draws = s.draws := rfl
@[simp] theorem loadTimer_script : (s.loadTimer n).script = s.script := rfl
end LoadTimer

section Tick
@[simp] theorem tick_fsm : s.tick.fsm = s.fsm := rfl
@[simp] theorem tick_curOp : s.tick.curOp = s.curOp := rfl
@[simp] theorem tick_phase : s.tick.phase = s.phase := rfl
@[simp] theorem tick_curAddr : s.tick.curAddr = s.curAddr := rfl
@[simp] theorem tick_attempt : s.tick.attempt = s.attempt := rfl
@[simp] theorem tick_timer : s.tick.timer = s.timer - 1 := rfl
@[simp] theorem tick_rlen : s.tick.rlen = s.rlen := rfl
@[simp] theorem tick_rbuf : s.tick.rbuf = s.rbuf := rfl
@[simp] theorem tick_resValid : s.tick.resValid = s.resValid := rfl
@[simp] theorem tick_resCode : s.tick.resCode = s.resCode := rfl
@[simp] theorem tick_resAttempts : s.tick.resAttempts = s.resAttempts := rfl
@[simp] theorem tick_resTRaw : s.tick.resTRaw = s.resTRaw := rfl
@[simp] theorem tick_resRhRaw : s.tick.resRhRaw = s.resRhRaw := rfl
@[simp] theorem tick_resSerial : s.tick.resSerial = s.resSerial := rfl
@[simp] theorem tick_resStatus : s.tick.resStatus = s.resStatus := rfl
@[simp] theorem tick_resResetOk : s.tick.resResetOk = s.resResetOk := rfl
@[simp] theorem tick_cfg : s.tick.cfg = s.cfg := rfl
@[simp] theorem tick_draws : s.tick.draws = s.draws := rfl
@[simp] theorem tick_script : s.tick.script = s.script := rfl
end Tick

section BeginRead
@[simp] theorem beginRead_fsm : s.beginRead.fsm = .respRead := rfl
@[simp] theorem beginRead_curOp : s.beginRead.curOp = s.curOp := rfl
@[simp] theorem beginRead_phase : s.beginRead.phase = s.phase := rfl
@[simp] theorem beginRead_curAddr : s.beginRead.curAddr = s.curAddr := rfl
@[simp] theorem beginRead_attempt : s.beginRead.attempt = s.attempt := rfl
@[simp] theorem beginRead_timer : s.beginRead.timer = s.timer := rfl
@[simp] theorem beginRead_rlen : s.beginRead.rlen = s.rlen := rfl
@[simp] theorem beginRead_rbuf : s.beginRead.rbuf = s.rbuf := rfl
@[simp] theorem beginRead_resValid : s.beginRead.resValid = s.resValid := rfl
@[simp] theorem beginRead_resCode : s.beginRead.resCode = s.resCode := rfl
@[simp] theorem beginRead_resAttempts : s.beginRead.resAttempts = s.resAttempts := rfl
@[simp] theorem beginRead_resTRaw : s.beginRead.resTRaw = s.resTRaw := rfl
@[simp] theorem beginRead_resRhRaw : s.beginRead.resRhRaw = s.resRhRaw := rfl
@[simp] theorem beginRead_resSerial : s.beginRead.resSerial = s.resSerial := rfl
@[simp] theorem beginRead_resStatus : s.beginRead.resStatus = s.resStatus := rfl
@[simp] theorem beginRead_resResetOk : s.beginRead.resResetOk = s.resResetOk := rfl
@[simp] theorem beginRead_cfg : s.beginRead.cfg = s.cfg := rfl
@[simp] theorem beginRead_draws : s.beginRead.draws = s.draws := rfl
@[simp] theorem beginRead_script : s.beginRead.script = s.script := rfl
end BeginRead

section StoreResponse
variable (n : Nat)
@[simp] theorem storeResponse_fsm : (s.storeResponse n).fsm = .arbitrate := rfl
@[simp] theorem storeResponse_curOp : (s.storeResponse n).curOp = s.curOp := rfl
@[simp] theorem storeResponse_phase : (s.storeResponse n).phase = s.phase := rfl
@[simp] theorem storeResponse_curAddr : (s.storeResponse n).curAddr = s.curAddr := rfl
@[simp] theorem storeResponse_attempt : (s.storeResponse n).attempt = s.attempt := rfl
@[simp] theorem storeResponse_timer : (s.storeResponse n).timer = s.timer := rfl
@[simp] theorem storeResponse_rlen : (s.storeResponse n).rlen = BitVec.ofNat 3 (s.pins.deliveredLen n) := rfl
@[simp] theorem storeResponse_rbuf : (s.storeResponse n).rbuf = s.responseBuf n := rfl
@[simp] theorem storeResponse_resValid : (s.storeResponse n).resValid = s.resValid := rfl
@[simp] theorem storeResponse_resCode : (s.storeResponse n).resCode = s.resCode := rfl
@[simp] theorem storeResponse_resAttempts : (s.storeResponse n).resAttempts = s.resAttempts := rfl
@[simp] theorem storeResponse_resTRaw : (s.storeResponse n).resTRaw = s.resTRaw := rfl
@[simp] theorem storeResponse_resRhRaw : (s.storeResponse n).resRhRaw = s.resRhRaw := rfl
@[simp] theorem storeResponse_resSerial : (s.storeResponse n).resSerial = s.resSerial := rfl
@[simp] theorem storeResponse_resStatus : (s.storeResponse n).resStatus = s.resStatus := rfl
@[simp] theorem storeResponse_resResetOk : (s.storeResponse n).resResetOk = s.resResetOk := rfl
@[simp] theorem storeResponse_cfg : (s.storeResponse n).cfg = s.cfg := rfl
@[simp] theorem storeResponse_draws : (s.storeResponse n).draws = s.draws + 6 := rfl
@[simp] theorem storeResponse_script : (s.storeResponse n).script = s.script := rfl
end StoreResponse

section WriteMeas
variable (t rh : Word)
@[simp] theorem writeMeas_fsm : (s.writeMeas t rh).fsm = s.fsm := rfl
@[simp] theorem writeMeas_curOp : (s.writeMeas t rh).curOp = s.curOp := rfl
@[simp] theorem writeMeas_phase : (s.writeMeas t rh).phase = s.phase := rfl
@[simp] theorem writeMeas_curAddr : (s.writeMeas t rh).curAddr = s.curAddr := rfl
@[simp] theorem writeMeas_attempt : (s.writeMeas t rh).attempt = s.attempt := rfl
@[simp] theorem writeMeas_timer : (s.writeMeas t rh).timer = s.timer := rfl
@[simp] theorem writeMeas_rlen : (s.writeMeas t rh).rlen = s.rlen := rfl
@[simp] theorem writeMeas_rbuf : (s.writeMeas t rh).rbuf = s.rbuf := rfl
@[simp] theorem writeMeas_resValid : (s.writeMeas t rh).resValid = s.resValid := rfl
@[simp] theorem writeMeas_resCode : (s.writeMeas t rh).resCode = s.resCode := rfl
@[simp] theorem writeMeas_resAttempts : (s.writeMeas t rh).resAttempts = s.resAttempts := rfl
@[simp] theorem writeMeas_resTRaw : (s.writeMeas t rh).resTRaw = t := rfl
@[simp] theorem writeMeas_resRhRaw : (s.writeMeas t rh).resRhRaw = rh := rfl
@[simp] theorem writeMeas_resSerial : (s.writeMeas t rh).resSerial = s.resSerial := rfl
@[simp] theorem writeMeas_resStatus : (s.writeMeas t rh).resStatus = s.resStatus := rfl
@[simp] theorem writeMeas_resResetOk : (s.writeMeas t rh).resResetOk = s.resResetOk := rfl
@[simp] theorem writeMeas_cfg : (s.writeMeas t rh).cfg = s.cfg := rfl
@[simp] theorem writeMeas_draws : (s.writeMeas t rh).draws = s.draws := rfl
@[simp] theorem writeMeas_script : (s.writeMeas t rh).script = s.script := rfl
end WriteMeas

section DrawMeas
@[simp] theorem drawMeas_fsm : s.drawMeas.fsm = s.fsm := rfl
@[simp] theorem drawMeas_curOp : s.drawMeas.curOp = s.curOp := rfl
@[simp] theorem drawMeas_phase : s.drawMeas.phase = s.phase := rfl
@[simp] theorem drawMeas_curAddr : s.drawMeas.curAddr = s.curAddr := rfl
@[simp] theorem drawMeas_attempt : s.drawMeas.attempt = s.attempt := rfl
@[simp] theorem drawMeas_timer : s.drawMeas.timer = s.timer := rfl
@[simp] theorem drawMeas_rlen : s.drawMeas.rlen = s.rlen := rfl
@[simp] theorem drawMeas_rbuf : s.drawMeas.rbuf = s.rbuf := rfl
@[simp] theorem drawMeas_resValid : s.drawMeas.resValid = s.resValid := rfl
@[simp] theorem drawMeas_resCode : s.drawMeas.resCode = s.resCode := rfl
@[simp] theorem drawMeas_resAttempts : s.drawMeas.resAttempts = s.resAttempts := rfl
@[simp] theorem drawMeas_resTRaw : s.drawMeas.resTRaw = Config.freeWord s.draws := rfl
@[simp] theorem drawMeas_resRhRaw : s.drawMeas.resRhRaw = Config.freeWord (s.draws + 1) := rfl
@[simp] theorem drawMeas_resSerial : s.drawMeas.resSerial = s.resSerial := rfl
@[simp] theorem drawMeas_resStatus : s.drawMeas.resStatus = s.resStatus := rfl
@[simp] theorem drawMeas_resResetOk : s.drawMeas.resResetOk = s.resResetOk := rfl
@[simp] theorem drawMeas_cfg : s.drawMeas.cfg = s.cfg := rfl
@[simp] theorem drawMeas_draws : s.drawMeas.draws = s.draws + 2 := rfl
@[simp] theorem drawMeas_script : s.drawMeas.script = s.script := rfl
end DrawMeas

section WriteSerial
variable (v : BitVec 32)
@[simp] theorem writeSerial_fsm : (s.writeSerial v).fsm = s.fsm := rfl
@[simp] theorem writeSerial_curOp : (s.writeSerial v).curOp = s.curOp := rfl
@[simp] theorem writeSerial_phase : (s.writeSerial v).phase = s.phase := rfl
@[simp] theorem writeSerial_curAddr : (s.writeSerial v).curAddr = s.curAddr := rfl
@[simp] theorem writeSerial_attempt : (s.writeSerial v).attempt = s.attempt := rfl
@[simp] theorem writeSerial_timer : (s.writeSerial v).timer = s.timer := rfl
@[simp] theorem writeSerial_rlen : (s.writeSerial v).rlen = s.rlen := rfl
@[simp] theorem writeSerial_rbuf : (s.writeSerial v).rbuf = s.rbuf := rfl
@[simp] theorem writeSerial_resValid : (s.writeSerial v).resValid = s.resValid := rfl
@[simp] theorem writeSerial_resCode : (s.writeSerial v).resCode = s.resCode := rfl
@[simp] theorem writeSerial_resAttempts : (s.writeSerial v).resAttempts = s.resAttempts := rfl
@[simp] theorem writeSerial_resTRaw : (s.writeSerial v).resTRaw = s.resTRaw := rfl
@[simp] theorem writeSerial_resRhRaw : (s.writeSerial v).resRhRaw = s.resRhRaw := rfl
@[simp] theorem writeSerial_resSerial : (s.writeSerial v).resSerial = v := rfl
@[simp] theorem writeSerial_resStatus : (s.writeSerial v).resStatus = s.resStatus := rfl
@[simp] theorem writeSerial_resResetOk : (s.writeSerial v).resResetOk = s.resResetOk := rfl
@[simp] theorem writeSerial_cfg : (s.writeSerial v).cfg = s.cfg := rfl
@[simp] theorem writeSerial_draws : (s.writeSerial v).draws = s.draws := rfl
@[simp] theorem writeSerial_script : (s.writeSerial v).script = s.script := rfl
end WriteSerial

section WriteStatus
variable (v : Word)
@[simp] theorem writeStatus_fsm : (s.writeStatus v).fsm = s.fsm := rfl
@[simp] theorem writeStatus_curOp : (s.writeStatus v).curOp = s.curOp := rfl
@[simp] theorem writeStatus_phase : (s.writeStatus v).phase = s.phase := rfl
@[simp] theorem writeStatus_curAddr : (s.writeStatus v).curAddr = s.curAddr := rfl
@[simp] theorem writeStatus_attempt : (s.writeStatus v).attempt = s.attempt := rfl
@[simp] theorem writeStatus_timer : (s.writeStatus v).timer = s.timer := rfl
@[simp] theorem writeStatus_rlen : (s.writeStatus v).rlen = s.rlen := rfl
@[simp] theorem writeStatus_rbuf : (s.writeStatus v).rbuf = s.rbuf := rfl
@[simp] theorem writeStatus_resValid : (s.writeStatus v).resValid = s.resValid := rfl
@[simp] theorem writeStatus_resCode : (s.writeStatus v).resCode = s.resCode := rfl
@[simp] theorem writeStatus_resAttempts : (s.writeStatus v).resAttempts = s.resAttempts := rfl
@[simp] theorem writeStatus_resTRaw : (s.writeStatus v).resTRaw = s.resTRaw := rfl
@[simp] theorem writeStatus_resRhRaw : (s.writeStatus v).resRhRaw = s.resRhRaw := rfl
@[simp] theorem writeStatus_resSerial : (s.writeStatus v).resSerial = s.resSerial := rfl
@[simp] theorem writeStatus_resStatus : (s.writeStatus v).resStatus = v := rfl
@[simp] theorem writeStatus_resResetOk : (s.writeStatus v).resResetOk = s.resResetOk := rfl
@[simp] theorem writeStatus_cfg : (s.writeStatus v).cfg = s.cfg := rfl
@[simp] theorem writeStatus_draws : (s.writeStatus v).draws = s.draws := rfl
@[simp] theorem writeStatus_script : (s.writeStatus v).script = s.script := rfl
end WriteStatus

section WriteResetOk
variable (b : Bool)
@[simp] theorem writeResetOk_fsm : (s.writeResetOk b).fsm = s.fsm := rfl
@[simp] theorem writeResetOk_curOp : (s.writeResetOk b).curOp = s.curOp := rfl
@[simp] theorem writeResetOk_phase : (s.writeResetOk b).phase = s.phase := rfl
@[simp] theorem writeResetOk_curAddr : (s.writeResetOk b).curAddr = s.curAddr := rfl
@[simp] theorem writeResetOk_attempt : (s.writeResetOk b).attempt = s.attempt := rfl
@[simp] theorem writeResetOk_timer : (s.writeResetOk b).timer = s.timer := rfl
@[simp] theorem writeResetOk_rlen : (s.writeResetOk b).rlen = s.rlen := rfl
@[simp] theorem writeResetOk_rbuf : (s.writeResetOk b).rbuf = s.rbuf := rfl
@[simp] theorem writeResetOk_resValid : (s.writeResetOk b).resValid = s.resValid := rfl
@[simp] theorem writeResetOk_resCode : (s.writeResetOk b).resCode = s.resCode := rfl
@[simp] theorem writeResetOk_resAttempts : (s.writeResetOk b).resAttempts = s.resAttempts := rfl
@[simp] theorem writeResetOk_resTRaw : (s.writeResetOk b).resTRaw = s.resTRaw := rfl
@[simp] theorem writeResetOk_resRhRaw : (s.writeResetOk b).resRhRaw = s.resRhRaw := rfl
@[simp] theorem writeResetOk_resSerial : (s.writeResetOk b).resSerial = s.resSerial := rfl
@[simp] theorem writeResetOk_resStatus : (s.writeResetOk b).resStatus = s.resStatus := rfl
@[simp] theorem writeResetOk_resResetOk : (s.writeResetOk b).resResetOk = b := rfl
@[simp] theorem writeResetOk_cfg : (s.writeResetOk b).cfg = s.cfg := rfl
@[simp] theorem writeResetOk_draws : (s.writeResetOk b).draws = s.draws := rfl
@[simp] theorem writeResetOk_script : (s.writeResetOk b).script = s.script := rfl
end WriteResetOk

section Finish
variable (c : ResCode)
@[simp] theorem finish_fsm : (s.finish c).fsm = .complete := rfl
@[simp] theorem finish_curOp : (s.finish c).curOp = s.curOp := rfl
@[simp] theorem finish_phase : (s.finish c).phase = s.phase := rfl
@[simp] theorem finish_curAddr : (s.finish c).curAddr = s.curAddr := rfl
@[simp] theorem finish_attempt : (s.finish c).attempt = s.attempt := rfl
@[simp] theorem finish_timer : (s.finish c).timer = s.timer := rfl
@[simp] theorem finish_rlen : (s.finish c).rlen = s.rlen := rfl
@[simp] theorem finish_rbuf : (s.finish c).rbuf = s.rbuf := rfl
@[simp] theorem finish_resValid : (s.finish c).resValid = true := rfl
@[simp] theorem finish_resCode : (s.finish c).resCode = c := rfl
@[simp] theorem finish_resAttempts : (s.finish c).resAttempts = s.attempt := rfl
@[simp] theorem finish_resTRaw : (s.finish c).resTRaw = s.resTRaw := rfl
@[simp] theorem finish_resRhRaw : (s.finish c).resRhRaw = s.resRhRaw := rfl
@[simp] theorem finish_resSerial : (s.finish c).resSerial = s.resSerial := rfl
@[simp] theorem finish_resStatus : (s.finish c).resStatus = s.resStatus := rfl
@[simp] theorem finish_resResetOk : (s.finish c).resResetOk = s.resResetOk := rfl
@[simp] theorem finish_cfg : (s.finish c).cfg = s.cfg := rfl
@[simp] theorem finish_draws : (s.finish c).draws = s.draws := rfl
@[simp] theorem finish_script : (s.finish c).script = s.script := rfl
end Finish

section Release
@[simp] theorem release_fsm : s.release.fsm = .idle := rfl
@[simp] theorem release_curOp : s.release.curOp = s.curOp := rfl
@[simp] theorem release_phase : s.release.phase = s.phase := rfl
@[simp] theorem release_curAddr : s.release.curAddr = s.curAddr := rfl
@[simp] theorem release_attempt : s.release.attempt = s.attempt := rfl
@[simp] theorem release_timer : s.release.timer = s.timer := rfl
@[simp] theorem release_rlen : s.release.rlen = s.rlen := rfl
@[simp] theorem release_rbuf : s.release.rbuf = s.rbuf := rfl
@[simp] theorem release_resValid : s.release.resValid = false := rfl
@[simp] theorem release_resCode : s.release.resCode = s.resCode := rfl
@[simp] theorem release_resAttempts : s.release.resAttempts = s.resAttempts := rfl
@[simp] theorem release_resTRaw : s.release.resTRaw = s.resTRaw := rfl
@[simp] theorem release_resRhRaw : s.release.resRhRaw = s.resRhRaw := rfl
@[simp] theorem release_resSerial : s.release.resSerial = s.resSerial := rfl
@[simp] theorem release_resStatus : s.release.resStatus = s.resStatus := rfl
@[simp] theorem release_resResetOk : s.release.resResetOk = s.resResetOk := rfl
@[simp] theorem release_cfg : s.release.cfg = s.cfg := rfl
@[simp] theorem release_draws : s.release.draws = s.draws := rfl
@[simp] theorem release_script : s.release.script = s.script := rfl
end Release

section BlockReset
@[simp] theorem blockReset_fsm : s.blockReset.fsm = .idle := rfl
@[simp] theorem blockReset_curOp : s.blockReset.curOp = 0#3 := rfl
@[simp] theorem blockReset_phase : s.blockReset.phase = false := rfl
@[simp] theorem blockReset_curAddr : s.blockReset.curAddr = 0#7 := rfl
@[simp] theorem blockReset_attempt : s.blockReset.attempt = 0#4 := rfl
@[simp] theorem blockReset_timer : s.blockReset.timer = 0 := rfl
@[simp] theorem blockReset_rlen : s.blockReset.rlen = 0#3 := rfl
@[simp] theorem blockReset_rbuf : s.blockReset.rbuf = ⟨0#8, 0#8, 0#8, 0#8, 0#8, 0#8⟩ := rfl
@[simp] theorem blockReset_resValid : s.blockReset.resValid = false := rfl
@[simp] theorem blockReset_resCode : s.blockReset.resCode = .ok := rfl
@[simp] theorem blockReset_resAttempts : s.blockReset.resAttempts = 0#4 := rfl
@[simp] theorem blockReset_resTRaw : s.blockReset.resTRaw = 0#16 := rfl
@[simp] theorem blockReset_resRhRaw : s.blockReset.resRhRaw = 0#16 := rfl
@[simp] theorem blockReset_resSerial : s.blockReset.resSerial = 0#32 := rfl
@[simp] theorem blockReset_resStatus : s.blockReset.resStatus = 0#16 := rfl
@[simp] theorem blockReset_resResetOk : s.blockReset.resResetOk = false := rfl
@[simp] theorem blockReset_cfg : s.blockReset.cfg = s.cfg := rfl
@[simp] theorem blockReset_draws : s.blockReset.draws = s.draws := rfl
@[simp] theorem blockReset_script : s.blockReset.script = s.script := rfl
end BlockReset

section NextEdge
@[simp] theorem nextEdge_fsm : s.nextEdge.fsm = s.fsm := rfl
@[simp] theorem nextEdge_curOp : s.nextEdge.curOp = s.curOp := rfl
@[simp] theorem nextEdge_phase : s.nextEdge.phase = s.phase := rfl
@[simp] theorem nextEdge_curAddr : s.nextEdge.curAddr = s.curAddr := rfl
@[simp] theorem nextEdge_attempt : s.nextEdge.attempt = s.attempt := rfl
@[simp] theorem nextEdge_timer : s.nextEdge.timer = s.timer := rfl
@[simp] theorem nextEdge_rlen : s.nextEdge.rlen = s.rlen := rfl
@[simp] theorem nextEdge_rbuf : s.nextEdge.rbuf = s.rbuf := rfl
@[simp] theorem nextEdge_resValid : s.nextEdge.resValid = s.resValid := rfl
@[simp] theorem nextEdge_resCode : s.nextEdge.resCode = s.resCode := rfl
@[simp] theorem nextEdge_resAttempts : s.nextEdge.resAttempts = s.resAttempts := rfl
@[simp] theorem nextEdge_resTRaw : s.nextEdge.resTRaw = s.resTRaw := rfl
@[simp] theorem nextEdge_resRhRaw : s.nextEdge.resRhRaw = s.resRhRaw := rfl
@[simp] theorem nextEdge_resSerial : s.nextEdge.resSerial = s.resSerial := rfl
@[simp] theorem nextEdge_resStatus : s.nextEdge.resStatus = s.resStatus := rfl
@[simp] theorem nextEdge_resResetOk : s.nextEdge.resResetOk = s.resResetOk := rfl
@[simp] theorem nextEdge_cfg : s.nextEdge.cfg = s.cfg := rfl
@[simp] theorem nextEdge_draws : s.nextEdge.draws = s.draws := rfl
@[simp] theorem nextEdge_script : s.nextEdge.script = s.script.tail := rfl
end NextEdge

/-! The pins at the coming edge depend on the script alone, so no register update changes them. -/
@[simp] theorem latch_pins (op : ReqCode) (addr : DevAddr) : (s.latch op addr).pins = s.pins := rfl
@[simp] theorem beginAttempts_pins (ph : Bool) (n : BitVec 4) : (s.beginAttempts ph n).pins = s.pins := rfl
@[simp] theorem retry_pins : s.retry.pins = s.pins := rfl
@[simp] theorem noAttempt_pins : s.noAttempt.pins = s.pins := rfl
@[simp] theorem loadTimer_pins (n : Nat) : (s.loadTimer n).pins = s.pins := rfl
@[simp] theorem tick_pins : s.tick.pins = s.pins := rfl
@[simp] theorem beginRead_pins : s.beginRead.pins = s.pins := rfl
@[simp] theorem storeResponse_pins (n : Nat) : (s.storeResponse n).pins = s.pins := rfl
@[simp] theorem writeMeas_pins (t rh : Word) : (s.writeMeas t rh).pins = s.pins := rfl
@[simp] theorem drawMeas_pins : s.drawMeas.pins = s.pins := rfl
@[simp] theorem writeSerial_pins (v : BitVec 32) : (s.writeSerial v).pins = s.pins := rfl
@[simp] theorem writeStatus_pins (v : Word) : (s.writeStatus v).pins = s.pins := rfl
@[simp] theorem writeResetOk_pins (b : Bool) : (s.writeResetOk b).pins = s.pins := rfl
@[simp] theorem finish_pins (c : ResCode) : (s.finish c).pins = s.pins := rfl
@[simp] theorem release_pins : s.release.pins = s.pins := rfl
@[simp] theorem blockReset_pins : s.blockReset.pins = s.pins := rfl

end Sys2Proof.Machine
end

