-- ==== Sys2Proof/Laws/Buffer.lean ====
section
/-! SUPPORT. The response buffer: what a read of it gives after a write, its words, and the verdict written out. -/

namespace Sys2Proof.Machine

@[simp] theorem RBuf.get_ofFn (f : Fin 6 → Byte) (i : Fin 6) : (RBuf.ofFn f).get i = f i := by
  revert i
  simp [Fin.forall_fin_succ, RBuf.get, RBuf.ofFn]

/-- `MemRead(i, 2)` is big-endian (R9, R40). -/
theorem RBuf.memRead_two (b : RBuf) (i : Nat) (h : i + 2 ≤ 6) :
    b.memRead i 2 h = b.get ⟨i, by omega⟩ ++ b.get ⟨i + 1, by omega⟩ := by
  simp only [RBuf.memRead]
  apply BitVec.eq_of_getLsbD_eq
  intro k hk
  simp only [BitVec.getLsbD_append]
  by_cases h1 : k < 8
  · simp [h1]
  · have h3 : k - 8 < 8 := by omega
    simp [h1, h3]

/-- The data word of triplet k (R61). -/
theorem RBuf.word_zero (b : RBuf) : b.word 0 = b.get 0 ++ b.get 1 := RBuf.memRead_two b 0 (by decide)

theorem RBuf.word_one (b : RBuf) : b.word 1 = b.get 3 ++ b.get 4 := RBuf.memRead_two b 3 (by decide)

/-- R60 written out. -/
theorem RBuf.serial_eq (b : RBuf) : b.serial = (b.get 0 ++ b.get 1) ++ (b.get 3 ++ b.get 4) := by
  rw [RBuf.serial, RBuf.word_zero, RBuf.word_one]

/-- R9: a byte written by `MemWrite` at position j is byte j - i of the value, counted from the most significant. -/
theorem RBuf.get_memWrite_inside (b : RBuf) (i n : Nat) (v : BitVec (8 * n)) (j : Fin 6) (h : i ≤ j.val ∧ j.val < i + n) :
    (b.memWrite i n v).get j = v.extractLsb' (8 * (n - 1 - (j.val - i))) 8 := by
  simp [RBuf.memWrite, h]

/-- R9: a position outside the written range keeps its byte. -/
theorem RBuf.get_memWrite_outside (b : RBuf) (i n : Nat) (v : BitVec (8 * n)) (j : Fin 6)
    (h : ¬ (i ≤ j.val ∧ j.val < i + n)) : (b.memWrite i n v).get j = b.get j := by
  simp [RBuf.memWrite, h]

theorem Pins.deliveredLen_le (p : Pins) (n : Nat) : p.deliveredLen n ≤ n := Nat.min_le_right _ _

/-- R89, R39: a delivered position holds the byte received. -/
theorem State.responseBuf_delivered (s : State) (count : Nat) (i : Fin 6) (h : i.val < s.pins.deliveredLen count)
    (hc : count ≤ 6) : (s.responseBuf count).get i = s.pins.rdByte i := by
  have hn : s.pins.deliveredLen count ≤ 6 := Nat.le_trans (Pins.deliveredLen_le _ _) hc
  rw [State.responseBuf, RBuf.get_memWrite_inside _ _ _ _ _ ⟨by omega, by omega⟩]
  apply BitVec.eq_of_getLsbD_eq
  intro k hk
  simp only [Pins.rdByte, BitVec.getLsbD_extractLsb', hk, decide_true, Bool.true_and]
  have h1 : 8 * (s.pins.deliveredLen count - 1 - (i.val - 0)) + k < 8 * s.pins.deliveredLen count := by omega
  have h2 : 48 - 8 * s.pins.deliveredLen count + (8 * (s.pins.deliveredLen count - 1 - (i.val - 0)) + k) =
      40 - 8 * i.val + k := by omega
  simp only [h1, decide_true, Bool.true_and, h2]

/-- R89: an undelivered position holds a free value. -/
theorem State.responseBuf_undelivered (s : State) (count : Nat) (i : Fin 6) (h : s.pins.deliveredLen count ≤ i.val) :
    (s.responseBuf count).get i = Config.freeByte (s.draws + i.val) := by
  rw [State.responseBuf, RBuf.get_memWrite_outside _ _ _ _ _ (by omega)]
  simp [State.freeBuf]

/-- R76 with one triplet. -/
theorem verdict_one (s : State) :
    verdict 1 s = (decide (3 ≤ s.rlen.toNat) && tripletValid (s.rbuf.get 0) (s.rbuf.get 1) (s.rbuf.get 2)) := by
  simp [verdict, RBuf.tripletOk]

/-- R76 with two triplets. -/
theorem verdict_two (s : State) :
    verdict 2 s = (decide (6 ≤ s.rlen.toNat) && (tripletValid (s.rbuf.get 0) (s.rbuf.get 1) (s.rbuf.get 2) &&
      tripletValid (s.rbuf.get 3) (s.rbuf.get 4) (s.rbuf.get 5))) := by
  simp [verdict, RBuf.tripletOk]

/-- A verdict of 1 needs a full read (R76). -/
theorem verdict_full {n : Nat} {s : State} (h : verdict n s = true) : 3 * n ≤ s.rlen.toNat := by
  have := (Bool.and_eq_true _ _).mp h
  simpa using this.1

theorem respLen_le (c : Cmd) : respLen c ≤ 6 := by cases c <;> decide

/-- The settle delay of any command is at most that of a measurement (R84). -/
theorem settleTicks_le (p : Params) (c : Cmd) : settleTicks p c ≤ settleMsMeas * p.ticksPerMs := by
  cases c <;> simp only [settleTicks, settleMs, settleMsMeas, settleMsShort] <;> omega

/-- The delivered length fits `RLEN`. -/
theorem deliveredLen_toNat (s : State) (c : Cmd) :
    (BitVec.ofNat 3 (s.pins.deliveredLen (respLen c))).toNat = s.pins.deliveredLen (respLen c) := by
  have h1 := Pins.deliveredLen_le s.pins (respLen c)
  have h2 := respLen_le c
  rw [BitVec.toNat_ofNat]
  exact Nat.mod_eq_of_lt (by omega)

end Sys2Proof.Machine
end

