-- ==== Sys2Proof/Laws/Crc.lean ====
section
/-! SUPPORT. The CRC bit step: its two forms agree (R70), it is linear, and 8 of them lose nothing. -/

namespace Sys2Proof.Machine

/-- R70: the step with the 9-bit polynomial, truncated, is the step with 0x31. -/
theorem crcBit_eq_crcBit31 : ∀ c : Byte, crcBit c = crcBit31 c := by
  decide +revert

/-- One bit step respects XOR: the reason why an error pattern passes or not whatever the data (R74). -/
theorem crcBit_xor (x y : Byte) : crcBit (x ^^^ y) = crcBit x ^^^ crcBit y := by
  simp only [crcBit_eq_crcBit31, crcBit31, BitVec.shiftLeft_xor_distrib, BitVec.getLsbD_xor]
  have h : ∀ a b p q : Byte, a ^^^ p ^^^ (b ^^^ q) = a ^^^ b ^^^ (p ^^^ q) := fun a b p q => by ac_rfl
  rw [h]
  cases x.getLsbD 7 <;> cases y.getLsbD 7 <;> rfl

theorem crcBits_xor (n : Nat) (x y : Byte) : crcBits n (x ^^^ y) = crcBits n x ^^^ crcBits n y := by
  induction n generalizing x y with
  | zero => rfl
  | succ n ih => rw [crcBits, crcBit_xor, ih, crcBits, crcBits]

/-- A bit step sends only 0 to 0, since the polynomial's low bit is set. -/
theorem crcBit_eq_zero : ∀ c : Byte, crcBit c = 0#8 ↔ c = 0#8 := by
  decide +revert

theorem crcBits_eq_zero (n : Nat) (c : Byte) : crcBits n c = 0#8 ↔ c = 0#8 := by
  induction n generalizing c with
  | zero => rfl
  | succ n ih => rw [crcBits, ih, crcBit_eq_zero]

end Sys2Proof.Machine
end

