-- ==== Sys2Proof/Laws/Flags.lean ====
section
/-! SUPPORT. The status fields: the bits of a mask, and what a reserved output shows. -/

namespace Sys2Proof.Machine

/-- R109's mask, `(1 << w) - 1`, has its low `w` bits set. -/
theorem getLsbD_mask (w k : Nat) (hk : k < 16) : ((1#16 <<< w) - 1#16).getLsbD k = decide (k < w) := by
  by_cases hw : w < 16
  · have : ∀ w : Fin 16, ∀ k : Fin 16, ((1#16 <<< w.val) - 1#16).getLsbD k.val = decide (k.val < w.val) := by decide
    exact this ⟨w, hw⟩ ⟨k, hk⟩
  · rw [BitVec.shiftLeft_eq_zero (by omega), decide_eq_true (by omega)]
    have : ∀ k : Fin 16, (0#16 - 1#16).getLsbD k.val = true := by decide
    exact this ⟨k, hk⟩

@[simp] theorem readReserved_range (r : BitRange) (S : Word) : (readReserved r S).range = r := rfl

/-- R109: shift and mask leave a reserved output the bits `hi:lo` of the word, for every range. -/
theorem readReserved_eq (r : BitRange) (S : Word) : readReserved r S = ⟨r, S.extractLsb' r.lo r.width⟩ := by
  simp only [readReserved, readField, ReservedField.mk.injEq, heq_eq_eq, true_and]
  apply BitVec.eq_of_getLsbD_eq
  intro k hk
  by_cases h16 : k < 16
  · simp [getLsbD_mask _ k h16, hk]
  · simp [BitVec.getLsbD_of_ge, show 16 ≤ k by omega, show 16 ≤ r.lo + k by omega]

end Sys2Proof.Machine
end

