-- ==== Sys2Proof/Laws/Sequencer.lean ====
section
/-! SUPPORT. What one step can do, said once: the transition table of R95 as a relation, and the step in each state of the
state machine. -/

namespace Sys2Proof.Machine

variable {s t : State}

/-! Each meaning is the sequencer's edge of its request. -/

theorem exec_eq_requestEdge (i : Instr) (s : State) : exec i s = requestEdge i s := by
  cases i <;> rfl

theorem encodeReq_decodeReq : ∀ op : ReqCode, encodeReq (decodeReq op) = op := by decide

theorem decodeReq_encodeReq (i : Instr) (h : i.wf = true) : decodeReq (encodeReq i) = i := by
  cases i with
  | illegal code =>
    revert h
    revert code
    decide
  | _ => rfl

theorem decodeReq_wf : ∀ op : ReqCode, (decodeReq op).wf = true := by decide

/-- The free effective command of a state is the one its request gives (R82). -/
theorem ec_eq (s : State) : s.ec = effectiveCommand (decodeReq s.curOp) s.phase := rfl

/-! The step in each state. -/

theorem step_illFormed (h : s.cfg.wf = false) : step s = .refused .illFormedConfig := by
  simp [step, h]

theorem step_rst (hw : s.cfg.wf = true) (hr : s.pins.rst = true) : step s = .next s.blockReset.nextEdge := by
  simp [step, hw, hr]

theorem step_idle_wait (hw : s.cfg.wf = true) (hr : s.pins.rst = false) (hf : s.fsm = .idle)
    (hv : s.pins.reqValid = false) : step s = .next s.nextEdge := by
  simp [step, hw, hr, State.fetch, hf, hv]

theorem step_idle_accept (hw : s.cfg.wf = true) (hr : s.pins.rst = false) (hf : s.fsm = .idle)
    (hv : s.pins.reqValid = true) : step s = .next (acceptRequest (decodeReq s.pins.reqOp) s).nextEdge := by
  simp [step, hw, hr, State.fetch, hf, hv, exec_eq_requestEdge, requestEdge, onNext]

theorem step_cmdWrite (hw : s.cfg.wf = true) (hr : s.pins.rst = false) (hf : s.fsm = .cmdWrite) :
    step s = onNext State.nextEdge (cmdWriteEdge s.ec s) := by
  simp [step, hw, hr, State.fetch, hf, exec_eq_requestEdge, requestEdge, ec_eq]

theorem step_settle (hw : s.cfg.wf = true) (hr : s.pins.rst = false) (hf : s.fsm = .settle) :
    step s = onNext State.nextEdge (settleEdge s.ec s) := by
  simp [step, hw, hr, State.fetch, hf, exec_eq_requestEdge, requestEdge, ec_eq]

theorem step_respRead (hw : s.cfg.wf = true) (hr : s.pins.rst = false) (hf : s.fsm = .respRead) :
    step s = onNext State.nextEdge (respReadEdge s.ec s) := by
  simp [step, hw, hr, State.fetch, hf, exec_eq_requestEdge, requestEdge, ec_eq]

theorem step_arbitrate (hw : s.cfg.wf = true) (hr : s.pins.rst = false) (hf : s.fsm = .arbitrate) :
    step s = onNext State.nextEdge (arbitrateEdge (decide (decodeReq s.curOp = .softReset)) s.ec s) := by
  simp [step, hw, hr, State.fetch, hf, exec_eq_requestEdge, requestEdge, ec_eq]

theorem step_complete (hw : s.cfg.wf = true) (hr : s.pins.rst = false) (hf : s.fsm = .complete) :
    step s = onNext State.nextEdge (completeEdge s) := by
  simp [step, hw, hr, State.fetch, hf, exec_eq_requestEdge, requestEdge]

/-- The rows of R95, and the reset edge of R138: what one edge can make of a state, before the environment moves on. -/
inductive Transition (s : State) : State → Prop where
  | reset : s.pins.rst = true → Transition s s.blockReset
  | idleWait : s.pins.rst = false → s.fsm = .idle → s.pins.reqValid = false → Transition s s
  | acceptIllegal : s.pins.rst = false → s.fsm = .idle → s.pins.reqValid = true →
      requestCommand (decodeReq s.pins.reqOp) = none →
      Transition s ((s.latch s.pins.reqOp s.pins.devAddr).noAttempt.finish .illegalOp)
  | accept (c : Cmd) : s.pins.rst = false → s.fsm = .idle → s.pins.reqValid = true →
      requestCommand (decodeReq s.pins.reqOp) = some c →
      Transition s ((s.latch s.pins.reqOp s.pins.devAddr).beginAttempts (c == .readStatus)
        (if c = .softReset then 0#4 else 1#4))
  | writeWait : s.pins.rst = false → s.fsm = .cmdWrite → s.pins.wrDone = false → Transition s s
  | writeDone (c : Cmd) : s.pins.rst = false → s.fsm = .cmdWrite → s.pins.wrDone = true → s.ec = some c →
      Transition s (s.loadTimer (settleTicks s.cfg c))
  | settleTick : s.pins.rst = false → s.fsm = .settle → s.timer ≠ 0 → Transition s s.tick
  | settleReset (c : Cmd) : s.pins.rst = false → s.fsm = .settle → s.timer = 0 → s.ec = some c → respLen c = 0 →
      Transition s (s.beginAttempts true 1#4)
  | settleRead (c : Cmd) : s.pins.rst = false → s.fsm = .settle → s.timer = 0 → s.ec = some c → respLen c ≠ 0 →
      Transition s s.beginRead
  | readWait : s.pins.rst = false → s.fsm = .respRead → s.pins.rdDone = false → Transition s s
  | readDone (c : Cmd) : s.pins.rst = false → s.fsm = .respRead → s.pins.rdDone = true → s.ec = some c →
      Transition s (s.storeResponse (respLen c))
  | judgeMeasurement (c : Cmd) : s.pins.rst = false → s.fsm = .arbitrate → s.ec = some c →
      c = .measHigh ∨ c = .measMedium ∨ c = .measLow → Transition s (arbitrateMeasurement s)
  | judgeSerial : s.pins.rst = false → s.fsm = .arbitrate → s.ec = some .readSerial →
      Transition s (arbitrateSerial s)
  | judgeStatus : s.pins.rst = false → s.fsm = .arbitrate → s.ec = some .readStatus →
      Transition s (arbitrateStatus (decide (decodeReq s.curOp = .softReset)) s)
  | completeWait : s.pins.rst = false → s.fsm = .complete → s.pins.rspAck = false → Transition s s
  | completeAck : s.pins.rst = false → s.fsm = .complete → s.pins.rspAck = true → Transition s s.release

theorem onNext_next {f : State → State} {r : Result} (h : onNext f r = .next t) : ∃ u, r = .next u ∧ t = f u := by
  cases r with
  | next u => exact ⟨u, rfl, by simpa [onNext] using h.symm⟩
  | fault _ => simp [onNext] at h
  | refused _ => simp [onNext] at h

theorem cmdWriteEdge_next {u : State} (hr : s.pins.rst = false) (hf : s.fsm = .cmdWrite)
    (h : cmdWriteEdge s.ec s = .next u) : Transition s u := by
  cases hd : s.pins.wrDone with
  | false =>
    obtain rfl : s = u := by simpa [cmdWriteEdge, hd] using h
    exact .writeWait hr hf hd
  | true =>
    cases hc : s.ec with
    | none => simp [cmdWriteEdge, hd, hc] at h
    | some c =>
      obtain rfl : s.loadTimer (settleTicks s.cfg c) = u := by simpa [cmdWriteEdge, hd, hc] using h
      exact .writeDone c hr hf hd hc

theorem settleEdge_next {u : State} (hr : s.pins.rst = false) (hf : s.fsm = .settle)
    (h : settleEdge s.ec s = .next u) : Transition s u := by
  by_cases ht : s.timer = 0
  · cases hc : s.ec with
    | none => simp [settleEdge, ht, hc] at h
    | some c =>
      by_cases hl : respLen c = 0
      · obtain rfl : s.beginAttempts true 1#4 = u := by simpa [settleEdge, ht, hc, hl] using h
        exact .settleReset c hr hf ht hc hl
      · obtain rfl : s.beginRead = u := by simpa [settleEdge, ht, hc, hl] using h
        exact .settleRead c hr hf ht hc hl
  · obtain rfl : s.tick = u := by simpa [settleEdge, ht] using h
    exact .settleTick hr hf ht

theorem respReadEdge_next {u : State} (hr : s.pins.rst = false) (hf : s.fsm = .respRead)
    (h : respReadEdge s.ec s = .next u) : Transition s u := by
  cases hd : s.pins.rdDone with
  | false =>
    obtain rfl : s = u := by simpa [respReadEdge, hd] using h
    exact .readWait hr hf hd
  | true =>
    cases hc : s.ec with
    | none => simp [respReadEdge, hd, hc] at h
    | some c =>
      obtain rfl : s.storeResponse (respLen c) = u := by simpa [respReadEdge, hd, hc] using h
      exact .readDone c hr hf hd hc

theorem arbitrateEdge_next {u : State} (hr : s.pins.rst = false) (hf : s.fsm = .arbitrate)
    (h : arbitrateEdge (decide (decodeReq s.curOp = .softReset)) s.ec s = .next u) : Transition s u := by
  cases hc : s.ec with
  | none => simp [arbitrateEdge, hc] at h
  | some c =>
    cases c <;> simp only [arbitrateEdge, hc, Host.Outcome.next.injEq, reduceCtorEq] at h <;> subst h
    · exact .judgeMeasurement _ hr hf hc (.inl rfl)
    · exact .judgeMeasurement _ hr hf hc (.inr (.inl rfl))
    · exact .judgeMeasurement _ hr hf hc (.inr (.inr rfl))
    · exact .judgeSerial hr hf hc
    · exact .judgeStatus hr hf hc

theorem completeEdge_next {u : State} (hr : s.pins.rst = false) (hf : s.fsm = .complete)
    (h : completeEdge s = .next u) : Transition s u := by
  cases ha : s.pins.rspAck with
  | false =>
    obtain rfl : s = u := by simpa [completeEdge, ha] using h
    exact .completeWait hr hf ha
  | true =>
    obtain rfl : s.release = u := by simpa [completeEdge, ha] using h
    exact .completeAck hr hf ha

theorem acceptRequest_transition (hr : s.pins.rst = false) (hf : s.fsm = .idle) (hv : s.pins.reqValid = true) :
    Transition s (acceptRequest (decodeReq s.pins.reqOp) s) := by
  unfold acceptRequest
  rw [encodeReq_decodeReq]
  cases hc : requestCommand (decodeReq s.pins.reqOp) with
  | none => exact .acceptIllegal hr hf hv hc
  | some c => exact .accept c hr hf hv hc

/-- Everything a step that answers a next state can do. -/
theorem step_next (h : step s = .next t) : s.cfg.wf = true ∧ ∃ u, Transition s u ∧ t = u.nextEdge := by
  cases hw : s.cfg.wf with
  | false => simp [step_illFormed hw] at h
  | true =>
    refine ⟨rfl, ?_⟩
    cases hr : s.pins.rst with
    | true =>
      rw [step_rst hw hr] at h
      exact ⟨_, .reset hr, by simpa using h.symm⟩
    | false =>
      cases hf : s.fsm with
      | idle =>
        cases hv : s.pins.reqValid with
        | false =>
          rw [step_idle_wait hw hr hf hv] at h
          exact ⟨_, .idleWait hr hf hv, by simpa using h.symm⟩
        | true =>
          rw [step_idle_accept hw hr hf hv] at h
          exact ⟨_, acceptRequest_transition hr hf hv, by simpa using h.symm⟩
      | cmdWrite =>
        rw [step_cmdWrite hw hr hf] at h
        obtain ⟨u, hu, rfl⟩ := onNext_next h
        exact ⟨u, cmdWriteEdge_next hr hf hu, rfl⟩
      | settle =>
        rw [step_settle hw hr hf] at h
        obtain ⟨u, hu, rfl⟩ := onNext_next h
        exact ⟨u, settleEdge_next hr hf hu, rfl⟩
      | respRead =>
        rw [step_respRead hw hr hf] at h
        obtain ⟨u, hu, rfl⟩ := onNext_next h
        exact ⟨u, respReadEdge_next hr hf hu, rfl⟩
      | arbitrate =>
        rw [step_arbitrate hw hr hf] at h
        obtain ⟨u, hu, rfl⟩ := onNext_next h
        exact ⟨u, arbitrateEdge_next hr hf hu, rfl⟩
      | complete =>
        rw [step_complete hw hr hf] at h
        obtain ⟨u, hu, rfl⟩ := onNext_next h
        exact ⟨u, completeEdge_next hr hf hu, rfl⟩

/-- The two ways `EC` comes about (R82). -/
theorem ec_some {c : Cmd} (h : s.ec = some c) :
    (s.phase = true ∧ c = .readStatus) ∨ (s.phase = false ∧ requestCommand (decodeReq s.curOp) = some c) := by
  rw [ec_eq, effectiveCommand] at h
  cases hp : s.phase <;> simp [hp] at h ⊢ <;> simp [h]

/-- Only the reset command has no response (R83). -/
theorem respLen_eq_zero (c : Cmd) : respLen c = 0 ↔ c = .softReset := by
  cases c <;> simp [respLen, tripletCount]

/-- A command tells the request that has it as its own (R53). -/
theorem requestCommand_eq_some {i : Instr} {c : Cmd} (h : requestCommand i = some c) :
    i = match c with
      | .measHigh => .measHigh | .measMedium => .measMedium | .measLow => .measLow
      | .readSerial => .readSerial | .readStatus => .readStatus | .softReset => .softReset := by
  cases i <;> simp [requestCommand] at h <;> subst h <;> rfl

/-! What the arbitration steps can make of a state. -/

theorem arbitrateMeasurement_cases (s : State) :
    (verdict 2 s = true ∧ arbitrateMeasurement s = (s.writeMeas (s.rbuf.word 0) (s.rbuf.word 1)).finish .ok) ∨
    (verdict 2 s = false ∧ arbitrateMeasurement s = s.drawMeas.finish .checksumMismatch) := by
  cases h : verdict 2 s <;> simp [arbitrateMeasurement, h]

theorem arbitrateSerial_cases (s : State) :
    (verdict 2 s = true ∧ arbitrateSerial s = (s.writeSerial s.rbuf.serial).finish .ok) ∨
    (verdict 2 s = false ∧ arbitrateSerial s = (s.writeSerial 0#32).finish .checksumMismatch) := by
  cases h : verdict 2 s <;> simp [arbitrateSerial, h]

theorem arbitrateStatus_cases (b : Bool) (s : State) :
    (verdict 1 s = true ∧ arbitrateStatus b s = (resetResult b (s.writeStatus (s.rbuf.word 0))).finish .ok) ∨
    (verdict 1 s = false ∧ s.attempt = nAttempts ∧
      arbitrateStatus b s = (resetResult b (s.writeStatus (s.rbuf.word 0))).finish .retryExhausted) ∨
    (verdict 1 s = false ∧ s.attempt ≠ nAttempts ∧ arbitrateStatus b s = s.retry) := by
  cases h : verdict 1 s with
  | true => left; simp [arbitrateStatus, h]
  | false =>
    right
    by_cases ha : s.attempt = nAttempts
    · left; simp [arbitrateStatus, h, ha]
    · right; simp [arbitrateStatus, h, ha]

/-! The result write of SOFT_RESET sets `RES_RESET_OK`, and in another request nothing at all. -/

@[simp] theorem resetResult_resResetOk (b : Bool) (s : State) : (resetResult b s).resResetOk =
    if b then !cmdStatus s.cfg.layout (s.rbuf.word 0) else s.resResetOk := by cases b <;> rfl
@[simp] theorem resetResult_fsm (b : Bool) (s : State) : (resetResult b s).fsm = s.fsm := by cases b <;> rfl
@[simp] theorem resetResult_curOp (b : Bool) (s : State) : (resetResult b s).curOp = s.curOp := by cases b <;> rfl
@[simp] theorem resetResult_phase (b : Bool) (s : State) : (resetResult b s).phase = s.phase := by cases b <;> rfl
@[simp] theorem resetResult_curAddr (b : Bool) (s : State) : (resetResult b s).curAddr = s.curAddr := by cases b <;> rfl
@[simp] theorem resetResult_attempt (b : Bool) (s : State) : (resetResult b s).attempt = s.attempt := by cases b <;> rfl
@[simp] theorem resetResult_timer (b : Bool) (s : State) : (resetResult b s).timer = s.timer := by cases b <;> rfl
@[simp] theorem resetResult_rlen (b : Bool) (s : State) : (resetResult b s).rlen = s.rlen := by cases b <;> rfl
@[simp] theorem resetResult_rbuf (b : Bool) (s : State) : (resetResult b s).rbuf = s.rbuf := by cases b <;> rfl
@[simp] theorem resetResult_resValid (b : Bool) (s : State) : (resetResult b s).resValid = s.resValid := by cases b <;> rfl
@[simp] theorem resetResult_resCode (b : Bool) (s : State) : (resetResult b s).resCode = s.resCode := by cases b <;> rfl
@[simp] theorem resetResult_resAttempts (b : Bool) (s : State) : (resetResult b s).resAttempts = s.resAttempts := by cases b <;> rfl
@[simp] theorem resetResult_resTRaw (b : Bool) (s : State) : (resetResult b s).resTRaw = s.resTRaw := by cases b <;> rfl
@[simp] theorem resetResult_resRhRaw (b : Bool) (s : State) : (resetResult b s).resRhRaw = s.resRhRaw := by cases b <;> rfl
@[simp] theorem resetResult_resSerial (b : Bool) (s : State) : (resetResult b s).resSerial = s.resSerial := by cases b <;> rfl
@[simp] theorem resetResult_resStatus (b : Bool) (s : State) : (resetResult b s).resStatus = s.resStatus := by cases b <;> rfl
@[simp] theorem resetResult_cfg (b : Bool) (s : State) : (resetResult b s).cfg = s.cfg := by cases b <;> rfl
@[simp] theorem resetResult_draws (b : Bool) (s : State) : (resetResult b s).draws = s.draws := by cases b <;> rfl
@[simp] theorem resetResult_script (b : Bool) (s : State) : (resetResult b s).script = s.script := by cases b <;> rfl

/-! No meaning refuses: the only refusal of a step is that of its configuration. -/

theorem requestEdge_ne_refused (i : Instr) (s : State) (r : Refusal) : requestEdge i s ≠ .refused r := by
  cases hf : s.fsm <;> simp only [requestEdge, hf]
  · simp
  · unfold cmdWriteEdge; split <;> (try split) <;> simp
  · unfold settleEdge; split <;> (try split) <;> (try split) <;> simp
  · unfold respReadEdge; split <;> (try split) <;> simp
  · unfold arbitrateEdge; split <;> simp
  · unfold completeEdge; split <;> simp

theorem onNext_ne_refused {f : State → State} {x : Result} {r : Refusal} (h : x ≠ .refused r) :
    onNext f x ≠ .refused r := by
  cases x <;> simp_all [onNext]

theorem step_ne_refused (h : s.cfg.wf = true) (r : Refusal) : step s ≠ .refused r := by
  unfold step
  rw [if_pos h]
  split
  · simp
  · split
    · simp
    · rw [exec_eq_requestEdge]
      exact onNext_ne_refused (requestEdge_ne_refused _ _ _)

end Sys2Proof.Machine
end

