-- ==== Sys2Proof/Laws/Invariant.lean ====
section
/-! SUPPORT. The invariant: it does not look at the environment, and an attempt has a command. The transport that answers a
request in progress. -/

namespace Sys2Proof.Safety

open Sys2Proof.Machine

variable {s : State}

/-- What a completed result says does not depend on the script. -/
theorem CompletedResult.nextEdge (h : CompletedResult s) : CompletedResult s.nextEdge where
  attempts        := h.attempts
  illegal_iff     := h.illegal_iff
  illegal_zero    := h.illegal_zero
  legal_attempts  := h.legal_attempts
  mismatch        := h.mismatch
  exhausted       := h.exhausted
  serial_sentinel := h.serial_sentinel
  reset_result    := h.reset_result

/-- The environment moves on without touching the invariant. -/
theorem Inv.nextEdge (h : Inv s) : Inv s.nextEdge where
  params_wf          := h.params_wf
  valid_iff_complete := h.valid_iff_complete
  attempt_le         := h.attempt_le
  resAttempts_le     := h.resAttempts_le
  rlen_le            := h.rlen_le
  timer_le           := h.timer_le
  busy_legal         := h.busy_legal
  phase_status       := h.phase_status
  phase_one          := h.phase_one
  attempt_zero       := h.attempt_zero
  attempt_single     := h.attempt_single
  read_not_reset     := h.read_not_reset
  settle_le          := h.settle_le
  delivered_le       := h.delivered_le
  completed          := fun hf => (h.completed hf).nextEdge

/-- R82: while a request is in progress it has an effective command. -/
theorem Inv.ec_of_busy (h : Inv s) (hb : busy s) : ∃ c, s.ec = some c := by
  rw [ec_eq, effectiveCommand]
  split
  · exact ⟨_, rfl⟩
  · exact Option.ne_none_iff_exists'.mp (h.busy_legal hb)

/-- R21: no result is pending outside `COMPLETE`. -/
theorem Inv.resValid_false (h : Inv s) (hf : s.fsm ≠ .complete) : s.resValid = false := by
  simpa [hf] using h.valid_iff_complete

/-- A transport that may leave more edges unanswered is met by more runs (R134). -/
theorem answersWithin_mono (k : Nat) {w w' : Nat} (hw : w ≤ w') (h : answersWithin k w s = true) :
    answersWithin k w' s = true := by
  induction k generalizing w w' s with
  | zero => rfl
  | succ k ih =>
    revert h
    simp only [answersWithin]
    split
    · cases step s with
      | next t =>
        simp only [Bool.and_eq_true]
        rintro ⟨hr, h⟩
        refine ⟨hr, ?_⟩
        by_cases ha : answered s = true
        · rw [if_pos ha] at h ⊢
          exact ih hw h
        · rw [if_neg ha] at h ⊢
          simp only [Bool.and_eq_true, decide_eq_true_eq] at h ⊢
          exact ⟨by omega, ih (by omega) h.2⟩
      | fault _ => simp
      | refused _ => simp
    · simp

/-- A request in progress has an edge left. -/
theorem Inv.edgesLeft_pos (h : Inv s) (hb : busy s) : 1 ≤ edgesLeft s := by
  obtain ⟨c, hc⟩ := h.ec_of_busy hb
  unfold edgesLeft
  rw [hc]
  cases hf : s.fsm <;> simp [busy, hf] at hb ⊢ <;> omega

end Sys2Proof.Safety
end

