-- ==== Sys2Proof/Laws/PerInstr.lean ====
section
/-! SUPPORT. Laws made per instruction. RowMatch: the code of a well-formed request matches the opcode-table row of its
mnemonic (R66). -/

namespace Sys2Proof.Laws.RowMatch

/-- The request's code matches a row with its mnemonic, and no other row. -/
def Statement (i : Instr) : Prop :=
  i.wf = true → (opcodeRows.filter fun r => r.hits (encodeReq i)).map OpcodeRow.mnemonic = [i.mnemonic]

theorem measHigh : Statement .measHigh := fun _ => by decide

theorem measMedium : Statement .measMedium := fun _ => by decide

theorem measLow : Statement .measLow := fun _ => by decide

theorem readSerial : Statement .readSerial := fun _ => by decide

theorem readStatus : Statement .readStatus := fun _ => by decide

theorem softReset : Statement .softReset := fun _ => by decide

theorem illegal (code : ReqCode) : Statement (.illegal code) := by
  unfold Statement
  revert code
  decide

end Sys2Proof.Laws.RowMatch
end

