-- ==== Sys2Proof/Laws/Run.lean ====
section
/-! SUPPORT. Runs: how they compose, that they are the host's, and the first request after a boot (R141). -/

namespace Sys2Proof.Machine

variable {s t : State}

theorem runSteps_succ_of_step (k : Nat) (h : step s = .next t) : runSteps (k + 1) s = runSteps k t := by
  simp [runSteps, h]

theorem busTrace_succ_of_step (k : Nat) (h : step s = .next t) :
    busTrace (k + 1) s = s.busEvent.toList ++ busTrace k t := by
  simp [busTrace, h]

theorem runSteps_add (j k : Nat) (h : runSteps j s = .next t) : runSteps (j + k) s = runSteps k t := by
  induction j generalizing s with
  | zero =>
    obtain rfl : s = t := by simpa [runSteps] using h
    rw [Nat.zero_add]
  | succ j ih =>
    cases hs : step s with
    | next u =>
      rw [runSteps_succ_of_step j hs] at h
      rw [Nat.succ_add, runSteps_succ_of_step _ hs, ih h]
    | fault _ => simp [runSteps, hs] at h
    | refused _ => simp [runSteps, hs] at h

theorem busTrace_add (j k : Nat) (h : runSteps j s = .next t) :
    busTrace (j + k) s = busTrace j s ++ busTrace k t := by
  induction j generalizing s with
  | zero =>
    obtain rfl : s = t := by simpa [runSteps] using h
    simp [busTrace]
  | succ j ih =>
    cases hs : step s with
    | next u =>
      rw [runSteps_succ_of_step j hs] at h
      rw [Nat.succ_add, busTrace_succ_of_step _ hs, busTrace_succ_of_step _ hs, ih h, List.append_assoc]
    | fault _ => simp [runSteps, hs] at h
    | refused _ => simp [runSteps, hs] at h

/-- A run of the model is a run of the host's core. -/
theorem runSteps_eq_core_run (k : Nat) (s : State) : runSteps k s = Host.Core.run Sys2Proof.core k s := by
  induction k generalizing s with
  | zero => rfl
  | succ k ih =>
    simp only [runSteps, Host.Core.run]
    rw [show Host.Core.step Sys2Proof.core s = step s from rfl]
    cases step s with
    | next u => exact ih u
    | fault _ => rfl
    | refused _ => rfl

/-- Where the script's next edge is `p`, the pins are `p`. -/
theorem pins_of_script {p : Pins} {rest : List Pins} (h : s.script = p :: rest) : s.pins = p := by
  simp [State.pins, h]

theorem State.nextEdge_eq {p : Pins} {rest : List Pins} (h : s.script = p :: rest) :
    s.nextEdge = { s with script := rest } := by
  simp [State.nextEdge, h]

/-- The host's way to run one request: the next step accepts it and runs it (R51, R86). -/
theorem step_withFetchWord (nbits w : Nat) (hw : s.cfg.wf = true) :
    step (s.withFetchWord nbits w) =
      onNext State.nextEdge (exec (decodeReq (BitVec.ofNat 3 (w % 2 ^ nbits))) (s.withFetchWord nbits w)) := by
  have h : (s.withFetchWord nbits w).cfg.wf = true := hw
  have hr : (s.withFetchWord nbits w).pins.rst = false := rfl
  have hf : (s.withFetchWord nbits w).fetch = some (decodeReq (BitVec.ofNat 3 (w % 2 ^ nbits))) := rfl
  unfold step
  rw [h, hr, hf]
  rfl

/-- Until a request is presented the block stays in `IDLE` (R85), whatever resets come. -/
theorem idle_until_request (before rest : List Pins) (hw : s.cfg.wf = true) (hf : s.fsm = .idle)
    (hs : s.script = before ++ rest) (hb : ∀ e ∈ before, e.rst = true ∨ e.reqValid = false) :
    ∃ t, runSteps before.length s = .next t ∧ t.cfg = s.cfg ∧ t.fsm = .idle ∧ t.script = rest := by
  induction before generalizing s with
  | nil => exact ⟨s, rfl, rfl, hf, hs⟩
  | cons e before ih =>
    have hp := pins_of_script hs
    have hbs : ∀ x ∈ before, x.rst = true ∨ x.reqValid = false := fun x hx => hb x (List.mem_cons_of_mem _ hx)
    by_cases hr : e.rst = true
    · obtain ⟨t, ht, hc, h⟩ := ih (s := s.blockReset.nextEdge) hw rfl (by simp [State.nextEdge, hs]) hbs
      exact ⟨t, by rw [List.length_cons, runSteps_succ_of_step _ (step_rst hw (hp ▸ hr)), ht], hc, h⟩
    · have hv : e.reqValid = false := (hb e List.mem_cons_self).resolve_left hr
      have hr : e.rst = false := by simpa using hr
      obtain ⟨t, ht, hc, h⟩ := ih (s := s.nextEdge) hw hf (by simp [State.nextEdge, hs]) hbs
      exact ⟨t, by rw [List.length_cons, runSteps_succ_of_step _ (step_idle_wait hw (hp ▸ hr) hf (hp ▸ hv)), ht], hc, h⟩

/-- What `bootEdges` asks: that `P_POWERUP` edges have passed, and the address stands, at the first request. -/
theorem bootEdges_first (p : Params) (addr : DevAddr) (n : Nat) (before rest : List Pins) (e : Pins)
    (hb : ∀ x ∈ before, x.rst = true ∨ x.reqValid = false) (hr : e.rst = false) (hv : e.reqValid = true) :
    Safety.bootEdges p addr n (before ++ e :: rest) = true ↔ p.powerUpEdges ≤ n + before.length ∧ e.devAddr = addr := by
  induction before generalizing n with
  | nil => simp [Safety.bootEdges, hr, hv]
  | cons x before ih =>
    have hx : (!x.rst && x.reqValid) = false := by
      rcases hb x List.mem_cons_self with h | h <;> simp [h]
    have h := ih (n + 1) fun y hy => hb y (List.mem_cons_of_mem _ hy)
    simp only [List.cons_append, Safety.bootEdges, hx, Bool.false_eq_true, if_false, h, List.length_cons,
      show n + 1 + before.length = n + (before.length + 1) by omega]

/-- R141: after a boot, from whatever state, the first request is accepted in `IDLE`, no earlier than after `P_POWERUP` edges,
and the sensor's address is latched with it. Nothing is asked of the edges `rest`. -/
theorem boot_first_request (addr : DevAddr) (r e : Pins) (before rest : List Pins) (hw : s.cfg.wf = true)
    (hs : s.script = r :: (before ++ e :: rest)) (hok : Safety.bootOk s.cfg addr s.script = true)
    (hb : ∀ x ∈ before, x.rst = true ∨ x.reqValid = false) (hr : e.rst = false) (hv : e.reqValid = true) :
    s.cfg.powerUpEdges ≤ before.length + 1 ∧
      ∃ t u, runSteps (before.length + 1) s = .next t ∧ t.fsm = .idle ∧ step t = .next u ∧
        u.curOp = e.reqOp ∧ u.curAddr = addr := by
  rw [hs] at hok
  simp only [Safety.bootOk, Bool.and_eq_true, bootEdges_first _ _ _ _ _ _ hb hr hv] at hok
  obtain ⟨hrst, hpow, rfl⟩ := hok
  have h0 := step_rst hw (pins_of_script hs ▸ hrst : s.pins.rst = true)
  obtain ⟨t, ht, hc, hf, hst⟩ := idle_until_request (s := s.blockReset.nextEdge) before (e :: rest) hw rfl
    (by simp [State.nextEdge, hs]) hb
  have hp := pins_of_script hst
  refine ⟨by omega, t, _, by rw [runSteps_succ_of_step _ h0, ht], hf,
    step_idle_accept (hc ▸ hw) (hp ▸ hr) hf (hp ▸ hv), ?_⟩
  rw [← hp]
  cases h : requestCommand (decodeReq t.pins.reqOp) <;> simp [acceptRequest, h, encodeReq_decodeReq]

end Sys2Proof.Machine
end

