-- ==== Sys2Proof/Machine/Script.lean ====
section
/-! DEFINITION. The program syntax of R65 as data, and the pins a program drives: the caller and the transport answering at
their first edge, as 95_test_vectors.md assumes (`Tw` = `Tr` = 1). -/

namespace Sys2Proof.Machine

/-- One line of a program (R65). -/
inductive Line where
  /-- `REQ #<n>`, or `REQ <mnemonic>` with the mnemonic's code. -/
  | req (op : ReqCode)
  /-- `WR ok` or `WR fail`: the transport's answer to the next write. -/
  | wr (ok : Bool)
  /-- `RD <len> : <b0> <b1> ...`: the transport's answer to the next read; byte 0 in the high bits of `data`. -/
  | rd (len : BitVec 3) (data : BitVec 48)
  /-- `ACK`. -/
  | ack
  deriving DecidableEq, Repr

/-- `REQ <mnemonic>` (R65). -/
def Line.reqOf (i : Instr) : Line := .req (encodeReq i)

/-- How many edges pass in `SETTLE` after a write of the request `i`: `SETTLE_TICKS` + 1 (R88). Every command a request
sends has the request's own settle delay. -/
def settleEdges (p : Params) (i : Instr) : Nat :=
  match requestCommand i with
  | some c => settleTicks p c + 1
  | none   => 0

/-- The pins of one line, then the quiet edges the block needs before the next line can act: the settle after a write, the
`ARBITRATE` edge after a read. `addr` is on `cfg_dev_addr` throughout; `i` is the request in progress. -/
def Line.edges (p : Params) (addr : DevAddr) (i : Instr) : Line → List Pins
  | .req op      => [{ Pins.quiet with reqValid := true, reqOp := op, devAddr := addr }]
  | .wr ok       => { Pins.quiet with wrDone := true, wrOk := ok, devAddr := addr } ::
                      List.replicate (settleEdges p i) { Pins.quiet with devAddr := addr }
  | .rd len data => [{ Pins.quiet with rdDone := true, rdLen := len, rdData := data, devAddr := addr },
                     { Pins.quiet with devAddr := addr }]
  | .ack         => [{ Pins.quiet with rspAck := true, devAddr := addr }]

/-- The request in progress after a line. -/
def Line.request (i : Instr) : Line → Instr
  | .req op => decodeReq op
  | .wr _ | .rd _ _ | .ack => i

/-- The script a program drives, the request `i` being in progress before it. -/
def programScript (p : Params) (addr : DevAddr) : Instr → List Line → List Pins
  | _, []         => []
  | i, l :: lines =>
    let i' := l.request i
    l.edges p addr i' ++ programScript p addr i' lines

end Sys2Proof.Machine
end

