-- ==== Sys2Proof/Tests/Slice0.lean ====
section
/-! SUPPORT. Tests. Expected results are the spec's own: the encodings of R53, the vectors of 95_test_vectors.md (their
numbers stand in the comments), or a rule's corner case. The second half shows, for each statement with hypotheses, a
state and operands that meet them. -/

namespace Sys2Proof.Tests

open Sys2Proof Sys2Proof.Machine Sys2Proof.Safety

/- One theorem after the other: each `decide +kernel` would start a thread of its own. -/
set_option Elab.async false

/-! ## Helpers -/

/-- The result is a next state with the property. -/
def nextIs (q : State → Bool) : Result → Bool
  | .next t    => q t
  | .fault _   => false
  | .refused _ => false

/-- The result is a refusal of the configuration. -/
def refusesConfig : Result → Bool
  | .refused .illFormedConfig => true
  | _                         => false

/-- The state after a step that answers one. -/
def after (s : State) : State :=
  match step s with
  | .next t => t
  | _       => s

/-- The state after reset, with these pins at the coming edge. -/
def atReset (p : Pins) : State := { State.reset with script := [p] }

/-- A request to the address 0x2A, as the programs of 95_test_vectors.md use it. -/
def request (op : ReqCode) : Pins := { Pins.quiet with reqValid := true, reqOp := op, devAddr := 0x2A#7 }

/-- A request in progress. -/
def running (f : FsmState) (op : ReqCode) (phase : Bool) (attempt : BitVec 4) (p : Pins) : State :=
  { State.reset with fsm := f, curOp := op, curAddr := 0x2A#7, phase := phase, attempt := attempt, script := [p] }

/-- A request whose response is being judged. -/
def judging (op : ReqCode) (phase : Bool) (attempt : BitVec 4) (len : BitVec 3) (b : RBuf) : State :=
  { running .arbitrate op phase attempt Pins.quiet with rlen := len, rbuf := b }

/-- The transport's answer to a read. -/
def answer (len : BitVec 3) (data : BitVec 48) : Pins :=
  { Pins.quiet with rdDone := true, rdLen := len, rdData := data }

/-- A state under another configuration. -/
def withCfg (s : State) (p : Params) : State := { s with cfg := p }

/-- The default layout with another reserved list. -/
def layoutReserved (r : List BitRange) : StatusLayout := { StatusLayout.sht3x with reserved := r }

/-- The standard parameters with another layout. -/
def paramsLayout (l : StatusLayout) : Params := { Params.standard with layout := l }

/-- The standard parameters with other measurement codes. -/
def paramsCodes (a b c : Word) : Params :=
  { Params.standard with cmdCode := { CmdCodes.sht3x with measHigh := a, measMedium := b, measLow := c } }

/-- A valid measurement response (95 section 1.2). -/
def goodMeas : RBuf := ⟨0x64, 0x8F, 0x03, 0x5C, 0xA3, 0x7D⟩

/-! ## Well-formedness: each check refuses an ill-formed term -/

/-- R54, R63: 6 and 7 are the reserved codes, and no other. -/
theorem test_wf_illegal_code :
    Instr.wf (.illegal 3#3) = false ∧ Instr.wf (.illegal 6#3) = true ∧ Instr.wf (.illegal 7#3) = true := by decide

/-- R57; 95 section 3.1: MEAS_HIGH = MEAS_LOW is refused, the alternative code 0x2C06 is not. -/
theorem test_wf_measurement_codes :
    (paramsCodes 0x2416 0x240B 0x2416).wf = false ∧ (paramsCodes 0x240B 0x240B 0x2416).wf = false ∧
      (paramsCodes 0x2400 0x2416 0x2416).wf = false ∧ (paramsCodes 0x2C06 0x240B 0x2416).wf = true := by decide

/-- R108: a named field two bits wide. -/
theorem test_wf_layout_wide_field :
    StatusLayout.wf { StatusLayout.sht3x with heaterStatus := ⟨14, 13⟩ } = false := by decide

/-- R108: a named field outside bits 15:0. -/
theorem test_wf_layout_field_outside :
    StatusLayout.wf { StatusLayout.sht3x with alertPending := ⟨16, 16⟩ } = false := by decide

/-- R108: two named fields at one bit. -/
theorem test_wf_layout_overlap :
    StatusLayout.wf { layoutReserved [⟨14, 11⟩, ⟨9, 5⟩, ⟨3, 2⟩, ⟨15, 15⟩] with
      alertPending := ⟨10, 10⟩, rhAlert := ⟨10, 10⟩, heaterStatus := ⟨13, 13⟩ } = false := by decide

/-- R108: a reserved bit outside bits 15:0, one that is missing, and one that a named field holds. -/
theorem test_wf_layout_reserved :
    (layoutReserved [⟨16, 16⟩, ⟨14, 14⟩, ⟨12, 12⟩, ⟨9, 5⟩, ⟨3, 2⟩]).wf = false ∧
      (layoutReserved [⟨14, 14⟩, ⟨12, 12⟩, ⟨9, 6⟩, ⟨3, 2⟩]).wf = false ∧
      (layoutReserved [⟨14, 13⟩, ⟨12, 12⟩, ⟨9, 5⟩, ⟨3, 2⟩]).wf = false ∧ StatusLayout.sht3x.wf = true := by decide

/-- R5: `P_TICKS_PER_MS` is at least 1. -/
theorem test_wf_ticks : Params.wf { Params.standard with ticksPerMs := 0 } = false := by decide

/-- R57, R108, R5: a step under an ill-formed configuration is refused, and so is one with `rst` = 1. -/
theorem test_step_refuses_ill_formed_config :
    refusesConfig (step (withCfg (atReset (request 0#3)) (paramsCodes 0x2400 0x2400 0x2416))) = true ∧
      refusesConfig (step (withCfg (atReset { Pins.quiet with rst := true })
        (paramsLayout (layoutReserved [])))) = true := by decide

/-! ## Decoding: the codes of R53 written out -/

theorem test_decode_meas_high : decode [0b00000_000#8, 0xAA#8] = .ok (.measHigh, [0xAA#8]) := rfl

theorem test_decode_meas_medium : decode [0b00000_001#8] = .ok (.measMedium, []) := rfl

theorem test_decode_meas_low : decode [0b00000_010#8] = .ok (.measLow, []) := rfl

theorem test_decode_read_serial : decode [0b00000_011#8] = .ok (.readSerial, []) := rfl

theorem test_decode_read_status : decode [0b00000_100#8] = .ok (.readStatus, []) := rfl

theorem test_decode_soft_reset : decode [0b00000_101#8] = .ok (.softReset, []) := rfl

theorem test_decode_illegal :
    decode [0b00000_110#8] = .ok (.illegal 0b110#3, []) ∧ decode [0b00000_111#8] = .ok (.illegal 0b111#3, []) :=
  ⟨rfl, rfl⟩

/-- R64: no byte, and a byte with a fourth bit, are rejected by name. -/
theorem test_decode_rejects :
    decode [] = .error .noByte ∧ decode [0b00001_000#8] = .error .widerThanThreeBits ∧
      decodeTableWord 8 0b1000 = none := ⟨rfl, rfl, rfl⟩

/-- R53, the other way. -/
theorem test_encode : encode .readStatus = [0b100#8] ∧ encode (.illegal 0b111#3) = [0b111#8] := by decide

/-- R66: exactly one row matches each of the 8 values. -/
theorem test_one_row_matches : ∀ op : ReqCode, (opcodeRows.filter (·.hits op)).length = 1 := by decide

/-! ## The command builder, the checksum, the arbiter -/

/-- 95 section 3.1, under the default codes. -/
theorem test_wire_bytes :
    wireBytes (commandFrame Params.standard .readStatus) = [0xF3#8, 0x2D#8] ∧
      wireBytes (commandFrame Params.standard .measLow) = [0x24#8, 0x16#8] := by decide

/-- 95 sections 1.1, 3.2. -/
theorem test_crc_vectors :
    crc8 0x44 0x4C = 0xCB#8 ∧ crc8 0xBE 0xEF = 0x92#8 ∧ crc8 0x00 0x00 = 0x81#8 ∧ crc8 0xFF 0x00 = 0x00#8 ∧
      crc8 0x34 0x12 = 0x91#8 ∧ crc8 0x12 0x34 = 0x37#8 := by decide +kernel

/-- 95 section 2, spot checks. -/
theorem test_crc_table : crcTable 0x01 = 0x31#8 ∧ crcTable 0x80 = 0x7A#8 ∧ crcTable 0xBB = 0x55#8 := by decide

/-- 95 section 3.2, TripletValid and the undetected error. -/
theorem test_triplets :
    tripletValid 0x64 0x8F 0x03 = true ∧ tripletValid 0x64 0x8F 0x02 = false ∧ tripletValid 0x00 0x00 0x00 = false ∧
      tripletValid24 (0x000081#24 ^^^ 0x000131#24) = true := by decide +kernel

/-- 95 section 3.3: both valid; the second bad; short with a stale byte that would pass. -/
theorem test_verdicts :
    verdict 2 (judging 0 false 1 6 goodMeas) = true ∧
      verdict 2 (judging 0 false 1 6 { goodMeas with b5 := 0x7C }) = false ∧
      verdict 2 (judging 0 false 1 5 goodMeas) = false ∧
      verdict 1 (judging 4 true 1 2 ⟨0x80, 0x10, 0xE1, 0, 0, 0⟩) = false := by decide +kernel

/-- 95 section 3.6: the words 0xFFFF and 0x8C00 under the default layout. -/
theorem test_status_decode :
    decodeStatus StatusLayout.sht3x 0xFFFF = ⟨true, true, true, true, true, true, true, 
        [⟨⟨14, 14⟩, 1#1⟩, ⟨⟨12, 12⟩, 1#1⟩, ⟨⟨9, 5⟩, 0x1F#5⟩, ⟨⟨3, 2⟩, 3#2⟩]⟩ ∧
      decodeStatus StatusLayout.sht3x 0x8C00 = ⟨false, false, false, true, true, false, true, 
        [⟨⟨14, 14⟩, 0#1⟩, ⟨⟨12, 12⟩, 0#1⟩, ⟨⟨9, 5⟩, 0#5⟩, ⟨⟨3, 2⟩, 0#2⟩]⟩ := by
  decide

/-- R9, R20: a triplet read is big-endian, and a write undoes it. -/
theorem test_buffer_order :
    goodMeas.triplet 1 = 0x5CA37D#24 ∧ (goodMeas.memWrite 3 3 0x010217#24) = ⟨0x64, 0x8F, 0x03, 0x01, 0x02, 0x17⟩ := by
  decide

/-- 95 section 3.7, the row 0x6666. -/
theorem test_conversion :
    temperatureC 0x6666 = 25 ∧ humidityPct 0x6666 = 40 ∧ temperatureF (temperatureC 0x6666) = 77 := by
  have h : (0x6666 : Word).toNat = 26214 := rfl
  simp only [temperatureC, humidityPct, temperatureF, h]
  norm_num

/-! ## One edge of each request (95 sections 3.3, 3.4, 3.5) -/

/-- S2. -/
theorem test_meas_high_accepted :
    nextIs (fun t => t.fsm == .cmdWrite && t.curOp == 0#3 && t.curAddr == 0x2A#7 && !t.phase && t.attempt == 1#4)
      (step (atReset (request 0#3))) = true := by decide

/-- R78, the first vector. -/
theorem test_meas_high_result :
    nextIs (fun t => t.resTRaw == 0x648F#16 && t.resRhRaw == 0x5CA3#16 && t.resCode == .ok && t.resAttempts == 1#4)
      (step (judging 0 false 1 6 goodMeas)) = true := by decide +kernel

/-- Section 3.5: the second triplet's checksum is off by one. -/
theorem test_meas_medium_mismatch :
    nextIs (fun t => t.fsm == .complete && t.resCode == .checksumMismatch && t.resSerial == 0#32)
      (step (judging 1 false 1 6 { goodMeas with b5 := 0x7C })) = true := by decide +kernel

/-- R150: 15 ticks are loaded at one tick a millisecond, and the code of MEAS_MEDIUM goes out (section 3.1). -/
theorem test_meas_medium_write :
    (running .cmdWrite 1 false 1 Pins.quiet).outputs.wrData = some 0x240B#16 ∧
      nextIs (fun t => t.timer == 15) (step (running .cmdWrite 1 false 1 { Pins.quiet with wrDone := true })) = true := by
  decide

/-- S7: 4 ticks a millisecond, and `wr_ok` = 0 is not read. -/
theorem test_meas_low_settle_loaded :
    nextIs (fun t => t.fsm == .settle && t.timer == 60)
      (step (withCfg (running .cmdWrite 2 false 1 { Pins.quiet with wrDone := true, wrOk := false })
        { Params.standard with ticksPerMs := 4 })) = true := by decide

/-- Section 3.5: `RD 5` gives `CHECKSUM_MISMATCH`. -/
theorem test_meas_low_short :
    nextIs (fun t => t.resCode == .checksumMismatch && t.resAttempts == 1#4) (step (judging 2 false 1 5 goodMeas)) =
      true := by decide

/-- R79: a serial number, and the sentinel. -/
theorem test_read_serial_result :
    nextIs (fun t => t.resSerial == 0x12348012#32 && t.resCode == .ok)
        (step (judging 3 false 1 6 ⟨0x12, 0x34, 0x37, 0x80, 0x12, 0x83⟩)) = true ∧
      nextIs (fun t => t.resSerial == 0#32 && t.resCode == .checksumMismatch)
        (step { judging 3 false 1 6 ⟨0x12, 0x34, 0x37, 0x80, 0x12, 0x82⟩ with resSerial := 7#32 }) = true := by decide +kernel

/-- S9; and a `rd_len` of 7 is clamped to 6 (section 3.3). -/
theorem test_read_serial_read :
    nextIs (fun t => t.fsm == .respRead) (step (running .settle 3 false 1 Pins.quiet)) = true ∧
      nextIs (fun t => t.rlen == 6#3 && t.rbuf == goodMeas)
        (step (running .respRead 3 false 1 (answer 7 0x648F035CA37D#48))) = true := by decide

/-- S11. -/
theorem test_read_status_read :
    nextIs (fun t => t.fsm == .arbitrate && t.rlen == 3#3 && t.rbuf.b0 == 0x80 && t.rbuf.b1 == 0x10 && t.rbuf.b2 == 0xE1)
      (step (running .respRead 4 true 1 (answer 3 0x8010E1000000#48))) = true := by decide

/-- S12 and S13. -/
theorem test_read_status_retry :
    nextIs (fun t => t.fsm == .cmdWrite && t.attempt == 10#4 && t.resStatus == 0#16)
        (step (judging 4 true 9 3 ⟨0x80, 0x10, 0, 0, 0, 0⟩)) = true ∧
      nextIs (fun t => t.fsm == .complete && t.resCode == .retryExhausted && t.resAttempts == 10#4 &&
          t.resStatus == 0x8010#16) (step (judging 4 true 10 3 ⟨0x80, 0x10, 0, 0, 0, 0⟩)) = true := by decide +kernel

/-- S10. -/
theorem test_soft_reset_status_phase :
    nextIs (fun t => t.fsm == .cmdWrite && t.phase && t.attempt == 1#4)
      (step (running .settle 5 false 0 Pins.quiet)) = true := by decide

/-- Section 1.4: 00 10 succeeds and 00 12 does not. -/
theorem test_soft_reset_result :
    nextIs (fun t => t.resStatus == 0x0010#16 && t.resResetOk && t.resCode == .ok)
        (step (judging 5 true 1 3 ⟨0x00, 0x10, 0xC2, 0, 0, 0⟩)) = true ∧
      nextIs (fun t => t.resStatus == 0x0012#16 && !t.resResetOk && t.resCode == .ok)
        (step (judging 5 true 1 3 ⟨0x00, 0x12, 0xA0, 0, 0, 0⟩)) = true := by decide +kernel

/-- S5. -/
theorem test_illegal_completes :
    nextIs (fun t => t.fsm == .complete && t.resCode == .illegalOp && t.resAttempts == 0#4 && t.resValid)
      (step (atReset (request 7#3))) = true := by decide

/-- P6: the illegal request leaves the buffer and the raw words, and its code and address are latched. -/
theorem test_illegal_keeps_data :
    nextIs (fun t => t.curOp == 6#3 && t.curAddr == 0x2A#7 && t.rbuf == goodMeas && t.resTRaw == 0x648F#16)
      (step { atReset (request 6#3) with rbuf := goodMeas, resTRaw := 0x648F#16 }) = true := by decide

/-! ## The other edges -/

/-- R31, R35, R62: every `res_*` output, of a completed request. -/
theorem test_outputs :
    let s : State := { running .complete 5 true 10 Pins.quiet with
      resValid := true, resCode := .retryExhausted, resAttempts := 10, resTRaw := 0x648F, resRhRaw := 0x5CA3,
      resSerial := 0x12348012, resStatus := 0x8010, resResetOk := true }
    s.outputs.rspValid = true ∧ s.outputs.reqReady = false ∧ s.outputs.resCode = 2#2 ∧ s.outputs.resAttempts = 10#4 ∧
      s.outputs.resTRaw = 0x648F#16 ∧ s.outputs.resRhRaw = 0x5CA3#16 ∧ s.outputs.resSerial = 0x12348012#32 ∧
      s.outputs.resStatus = 0x8010#16 ∧ s.outputs.resResetOk = true ∧ s.outputs.st.resetDetected = true ∧
      s.outputs.st.alertPending = true ∧ s.outputs.st.cmd = false := by decide

/-- R62, R12: the values of the result code and of `FSM_STATE`. -/
theorem test_code_values :
    [ResCode.ok, .checksumMismatch, .retryExhausted, .illegalOp].map ResCode.bits = [0#2, 1#2, 2#2, 3#2] ∧
      [FsmState.idle, .cmdWrite, .settle, .respRead, .arbitrate, .complete].map FsmState.bits =
        [0#3, 1#3, 2#3, 3#3, 4#3, 5#3] := by decide

/-- R82; section 3.1: what an attempt of each kind sends, and how many bytes it reads. -/
theorem test_effective_commands :
    [(0#3, false), (1#3, false), (2#3, false), (3#3, false), (4#3, true), (5#3, false), (5#3, true)].map
        (fun x => let o := (running .cmdWrite x.1 x.2 1 Pins.quiet).outputs; (o.wrData, o.rdCount)) =
      [(some 0x2400#16, some 6#3), (some 0x240B#16, some 6#3), (some 0x2416#16, some 6#3), (some 0x3780#16, some 6#3),
        (some 0xF32D#16, some 3#3), (some 0x30A2#16, some 0#3), (some 0xF32D#16, some 3#3)] := by decide

/-- S1 and S8. -/
theorem test_idle_and_settle_wait :
    nextIs (fun t => t == { State.reset with script := [] }) (step (atReset Pins.quiet)) = true ∧
      nextIs (fun t => t.fsm == .settle && t.timer == 2)
        (step { running .settle 0 false 1 Pins.quiet with timer := 3 }) = true := by decide

/-- S14, S15: in `COMPLETE` a request is not accepted, with the acknowledgement or without. -/
theorem test_complete_edges :
    nextIs (fun t => t.fsm == .complete && t.resValid)
        (step { running .complete 3 false 1 (request 0#3) with resValid := true }) = true ∧
      nextIs (fun t => t.fsm == .idle && !t.resValid && t.curOp == 3#3)
        (step { running .complete 3 false 1 { request 0#3 with rspAck := true } with resValid := true }) = true := by
  decide

/-- S16: `wr_done` is ignored in `RESP_READ`. -/
theorem test_stray_done_ignored :
    nextIs (fun t => t.fsm == .respRead) (step (running .respRead 4 true 1 { Pins.quiet with wrDone := true })) =
      true := by decide

/-- X2, X3: a reset wins over `wr_done`, and clears the result registers. -/
theorem test_reset_wins :
    nextIs (fun t => t == { State.reset with script := [] })
      (step { running .cmdWrite 0 false 1 { Pins.quiet with rst := true, wrDone := true } with
        resTRaw := 0x648F#16 }) = true := by decide

/-- P4 takes 9 edges from acceptance to `COMPLETE`, and the acknowledgement one more. -/
theorem test_program_edges :
    (programScript Params.standard 0x2A#7 (.illegal 6#3)
      [.reqOf .softReset, .wr true, .wr true, .rd 3#3 0x0010C2000000#48, .ack]).length = 10 := by decide

/-- R141 on the pins of P6: its later request has another address, as 95_test_vectors.md gives it; and the caller may hold
`req_valid` = 1 over the reset edge, which accepts nothing (R138). -/
theorem test_boot_later_address :
    bootOk Params.standard 0x2A#7
        [{ request 1#3 with rst := true, devAddr := 0x11#7 }, { request 0#3 with devAddr := 0x2A#7 }, Pins.quiet,
          { request 6#3 with devAddr := 0x11#7 }] = true ∧
      bootOk Params.standard 0x2A#7 [{ Pins.quiet with rst := true }, { request 6#3 with devAddr := 0x11#7 },
        { request 0#3 with devAddr := 0x2A#7 }] = false ∧
      bootOk { Params.standard with powerUpEdges := 3 } 0x2A#7
        [{ Pins.quiet with rst := true }, Pins.quiet, Pins.quiet, request 5#3] = true := by decide

/-- R141: reset first, the power-up time, and the sensor's address at the first request. -/
theorem test_boot :
    bootOk Params.standard 0x2A#7 [{ Pins.quiet with rst := true }, request 5#3] = true ∧
      bootOk Params.standard 0x2A#7 [request 5#3] = false ∧
      bootOk { Params.standard with powerUpEdges := 3 } 0x2A#7 [{ Pins.quiet with rst := true }, request 5#3] = false ∧
      bootOk Params.standard 0x11#7 [{ Pins.quiet with rst := true }, request 5#3] = false := by decide

/-- R134, R149: `wr_done` in `RESP_READ` is a duty not met. -/
theorem test_duty :
    dutyMet (running .respRead 4 true 1 { Pins.quiet with wrDone := true }) = false ∧
      dutyMet (running .respRead 4 true 1 (answer 3 0#48)) = true := by decide

/-- R143: which registers a caller may rely on after a measurement that failed, and after a serial number. -/
theorem test_may_rely :
    let m : State := { running .complete 0 false 1 Pins.quiet with resValid := true, resCode := .checksumMismatch }
    mayRely true .tRaw m = false ∧ mayRely true .code m = true ∧ mayRely true .serial m = false ∧
      mayRely false .tRaw { m with resCode := .ok } = true ∧
      mayRely false .serial (running .idle 3 false 1 Pins.quiet) = false := by decide

/-! ## Witnesses: states and operands that meet the hypotheses of a statement

A witness is named after its statement. Where a statement has several cases, each has a state here. -/

/-- DecodeReadsBackEveryEncoding: both values of the operand, and a request without one. -/
theorem witness_encode_wf : (Instr.illegal 6#3).wf = true ∧ (Instr.illegal 7#3).wf = true ∧ Instr.measHigh.wf = true := by
  decide

/-- DecodedBytesAreItsEncoding. -/
theorem witness_decoded_bytes : decode [0b111#8, 0xFF#8] = .ok (.illegal 7#3, [0xFF#8]) := rfl

/-- StepRunsDecodedRequest: a request on the port in `IDLE`. -/
theorem witness_step_runs_port :
    let s := atReset (request 7#3)
    s.cfg.wf = true ∧ s.pins.rst = false ∧ s.fsm = .idle ∧ s.pins.reqValid = true ∧
      [s.pins.reqOp.setWidth 8] = [0b111#8] := by decide

/-- StepRunsDecodedRequest: a request in progress. -/
theorem witness_step_runs_latched :
    let s := running .cmdWrite 5 false 0 Pins.quiet
    s.cfg.wf = true ∧ s.pins.rst = false ∧ s.fsm ≠ .idle ∧ [s.curOp.setWidth 8] = [0b101#8] := by decide

/-- The two sides of the witnesses above meet: those bytes decode. -/
theorem witness_step_runs_decodes :
    decode [0b111#8] = .ok (.illegal 7#3, []) ∧ decode [0b101#8] = .ok (.softReset, []) := ⟨rfl, rfl⟩

/-- ResetEdgeSetsEveryRegister. -/
theorem witness_reset_edge :
    let s := running .respRead 4 true 3 { Pins.quiet with rst := true, rdDone := true }
    s.cfg.wf = true ∧ s.pins.rst = true := by decide

/-- EqualMeasurementCodesRefused: each of the three pairs, the third code different. -/
theorem witness_equal_codes :
    (paramsCodes 1 1 2).cmdCode.measHigh = (paramsCodes 1 1 2).cmdCode.measMedium ∧
      (paramsCodes 1 2 1).cmdCode.measHigh = (paramsCodes 1 2 1).cmdCode.measLow ∧
      (paramsCodes 1 2 2).cmdCode.measMedium = (paramsCodes 1 2 2).cmdCode.measLow := by decide

/-- EqualMeasurementCodesRefused: three codes that differ, beside a status command with the code of a measurement. -/
theorem witness_unequal_codes :
    let p : Params := { Params.standard with cmdCode := { CmdCodes.sht3x with readStatus := 0x2400 } }
    p.layout.wf = true ∧ 1 ≤ p.ticksPerMs ∧ p.cmdCode.measHigh ≠ p.cmdCode.measMedium ∧
      p.cmdCode.measHigh ≠ p.cmdCode.measLow ∧ p.cmdCode.measMedium ≠ p.cmdCode.measLow := by decide

/-- IllFormedStatusLayoutRefused, first case: a field of two bits, and a field at bit 16. -/
theorem witness_layout_named :
    (∃ r ∈ StatusLayout.named { StatusLayout.sht3x with heaterStatus := ⟨14, 13⟩ }, r.hi ≠ r.lo ∨ 15 < r.hi) ∧
      ∃ r ∈ StatusLayout.named { StatusLayout.sht3x with alertPending := ⟨16, 16⟩ }, r.hi ≠ r.lo ∨ 15 < r.hi :=
  ⟨⟨⟨14, 13⟩, by decide, by decide⟩, ⟨⟨16, 16⟩, by decide, by decide⟩⟩

/-- IllFormedStatusLayoutRefused, second case: the fields 0 and 1 share bit 15. -/
theorem witness_layout_shared :
    let l : StatusLayout := { StatusLayout.sht3x with heaterStatus := ⟨15, 15⟩ }
    ∃ (j k : Nat) (a b : BitRange) (n : Nat), j ≠ k ∧ l.named[j]? = some a ∧ l.named[k]? = some b ∧
      a.lo ≤ n ∧ n ≤ a.hi ∧ b.lo ≤ n ∧ n ≤ b.hi :=
  ⟨0, 1, ⟨15, 15⟩, ⟨15, 15⟩, 15, by decide, rfl, rfl, by decide, by decide, by decide, by decide⟩

/-- IllFormedStatusLayoutRefused, third case: bit 0 is reserved and named, and bit 14 is neither. -/
theorem witness_layout_reserved :
    (∃ n, n ≤ 15 ∧ ¬ ((∃ r ∈ (layoutReserved [⟨14, 14⟩, ⟨12, 12⟩, ⟨9, 5⟩, ⟨3, 2⟩, ⟨0, 0⟩]).reserved, r.lo ≤ n ∧ n ≤ r.hi) ↔
        ¬ ∃ r ∈ StatusLayout.sht3x.named, r.lo ≤ n ∧ n ≤ r.hi)) ∧
      ∃ n, n ≤ 15 ∧ ¬ ((∃ r ∈ (layoutReserved [⟨12, 12⟩, ⟨9, 5⟩, ⟨3, 2⟩]).reserved, r.lo ≤ n ∧ n ≤ r.hi) ↔
        ¬ ∃ r ∈ StatusLayout.sht3x.named, r.lo ≤ n ∧ n ≤ r.hi) :=
  ⟨⟨0, by decide, by decide⟩, ⟨14, by decide, by decide⟩⟩

/-- IllFormedStatusLayoutRefused: the default layout has none of the faults. -/
theorem witness_layout_good :
    Params.standard.cmdCode.wf = true ∧ 1 ≤ Params.standard.ticksPerMs ∧
      (∀ r ∈ StatusLayout.sht3x.named, r.hi = r.lo ∧ r.hi ≤ 15) ∧ (StatusLayout.sht3x.named.map BitRange.lo).Nodup ∧
      (∀ r ∈ StatusLayout.sht3x.reserved, r.lo ≤ r.hi ∧ r.hi ≤ 15) ∧
      ∀ n ∈ List.range 16, ((∃ r ∈ StatusLayout.sht3x.reserved, r.lo ≤ n ∧ n ≤ r.hi) ↔
        ¬ ∃ r ∈ StatusLayout.sht3x.named, r.lo ≤ n ∧ n ≤ r.hi) := by decide

/-- EveryStepKeepsInvariant, InvariantStatesAlwaysStep: the state after reset meets the invariant, a request coming. -/
theorem witness_inv_idle : Inv (atReset (request 0#3)) := by
  constructor <;> first | decide | (intro h; exact absurd h (by decide))

/-- The same with a step: a request is accepted. -/
theorem witness_inv_step : step (atReset (request 0#3)) = .next (after (atReset (request 0#3))) := rfl

/-- A status read in its 10th attempt, its response being judged. -/
def judgedStatus : State := judging 4 true 10 3 ⟨0x80, 0x10, 0xE1, 0, 0, 0⟩

/-- A measurement, its response being judged. -/
def judgedMeas : State := judging 0 false 1 6 goodMeas

/-- A serial number, its response being judged. -/
def judgedSerial : State := judging 3 false 1 6 ⟨0x12, 0x34, 0x37, 0x80, 0x12, 0x83⟩

theorem witness_inv_status : Inv judgedStatus := by
  constructor <;>
    first | decide | (intro h; exact absurd h (by decide))

theorem witness_inv_meas : Inv judgedMeas := by
  constructor <;>
    first | decide | (intro h; exact absurd h (by decide))

theorem witness_inv_serial : Inv judgedSerial := by
  constructor <;>
    first | decide | (intro h; exact absurd h (by decide))

/-- A write whose transport answers, and a read: what BusTransactionsWellFormed speaks of. -/
def writing : State := running .cmdWrite 5 false 0 { Pins.quiet with wrDone := true }

def reading : State := running .respRead 3 false 1 (answer 6 0x123437801283#48)

theorem witness_inv_writing : Inv writing := by
  constructor <;> first | decide | (intro h; exact absurd h (by decide))

theorem witness_inv_reading : Inv reading := by
  constructor <;> first | decide | (intro h; exact absurd h (by decide))

/-- BusTransactionsWellFormed: a write and a read. -/
theorem witness_bus :
    writing.busEvent = some (.write 0x2A#7 [0x30#8, 0xA2#8]) ∧ reading.busEvent = some (.read 0x2A#7 6#3) := by decide

/-- IdleWaitsWithoutBound. -/
theorem witness_idle_waits :
    let s := { atReset Pins.quiet with script := List.replicate 3 Pins.quiet }
    s.cfg.wf = true ∧ 3 ≤ s.script.length ∧ s.fsm = .idle ∧ ∀ p ∈ s.script.take 3, p.rst = false ∧ p.reqValid = false := by decide

/-- UnansweredTransportHangs: both states; in each the other answer is present and does not count. -/
theorem witness_hang :
    let s := running .cmdWrite 0 false 1 { Pins.quiet with rdDone := true }
    let u := running .respRead 0 false 1 { Pins.quiet with wrDone := true }
    s.cfg.wf = true ∧ 1 ≤ s.script.length ∧ s.fsm = .cmdWrite ∧
      (∀ p ∈ s.script.take 1, p.rst = false ∧ p.wrDone = false) ∧ u.cfg.wf = true ∧ 1 ≤ u.script.length ∧
      u.fsm = .respRead ∧ ∀ p ∈ u.script.take 1, p.rst = false ∧ p.rdDone = false := by decide

/-- CompleteWaitsForAcknowledge: waiting, and taken together with a new request. -/
theorem witness_complete :
    let s := running .complete 0 false 1 (request 4#3)
    let u := running .complete 0 false 1 { request 4#3 with rspAck := true }
    s.cfg.wf = true ∧ 1 ≤ s.script.length ∧ s.fsm = .complete ∧ (∀ p ∈ s.script.take 1, p.rst = false ∧ p.rspAck = false) ∧
      u.cfg.wf = true ∧ u.fsm = .complete ∧ u.pins.rst = false ∧ u.pins.rspAck = true := by decide

/-- CompleteWaitsForAcknowledge: a completed request that meets the invariant. -/
theorem witness_inv_complete : Inv { running .complete 6 false 0 Pins.quiet with
    resValid := true, resCode := .illegalOp } := by
  constructor <;>
    first | decide | (intro _; constructor <;> decide)

/-- EachStateReadsOnlyItsOwnPins: pins that differ where the state does not read them, in `IDLE` without a request, `CMD_WRITE`
(`wr_ok`), `RESP_READ` without an answer, and `COMPLETE`. -/
theorem witness_own_pins_read :
    let idle := { Pins.quiet with reqOp := 5#3, devAddr := 1#7, rspAck := true }
    let write := { Pins.quiet with wrDone := true, wrOk := true }
    let read := { Pins.quiet with rdLen := 6#3, rdData := 1#48, wrDone := true }
    let complete := { request 0#3 with rspAck := true }
    (idle.reqValid = Pins.quiet.reqValid ∧ idle.reqValid = false ∧ idle ≠ Pins.quiet) ∧
      (write.wrDone = { write with wrOk := false }.wrDone ∧ write ≠ { write with wrOk := false }) ∧
      (read.rdDone = Pins.quiet.rdDone ∧ read.rdDone = false ∧ read ≠ Pins.quiet) ∧
      (complete.rspAck = { complete with reqValid := false }.rspAck ∧ complete ≠ { complete with reqValid := false }) := by
  decide

/-- EachStateReadsOnlyItsOwnPins: in `SETTLE` no pin but `rst` is read. -/
theorem witness_own_pins :
    let p := { answer 3 1#48 with wrDone := true, rspAck := true, reqValid := true }
    p.rst = Pins.quiet.rst ∧ p ≠ Pins.quiet ∧ FsmState.settle ≠ .idle ∧ FsmState.settle ≠ .cmdWrite ∧
      FsmState.settle ≠ .respRead ∧ FsmState.settle ≠ .complete := by decide

/-- RequestAcceptedInIdle: an illegal code, the two codes with a case of their own, and a plain one. -/
theorem witness_accepted : ∀ op ∈ [6#3, 4#3, 5#3, 0#3],
    let s := atReset (request op)
    s.cfg.wf = true ∧ s.pins.rst = false ∧ s.fsm = .idle ∧ s.pins.reqValid = true := by decide

/-- CommandWriteLoadsSettleTimer: every command, each under the request that sends it. -/
theorem witness_command_write :
    ∀ x ∈ [(0#3, false, Cmd.measHigh), (1#3, false, .measMedium), (2#3, false, .measLow), (3#3, false, .readSerial),
        (4#3, true, .readStatus), (5#3, false, .softReset), (5#3, true, .readStatus)],
      (if x.2.1 then some Cmd.readStatus else requestCommand (decodeReq x.1)) = some x.2.2 := by decide

/-- SettleCountsDownThenReads: counting, at 0 after the reset command, at 0 otherwise. -/
theorem witness_settle :
    (if false then some Cmd.readStatus else requestCommand .softReset) = some .softReset ∧
      (if false then some Cmd.readStatus else requestCommand .measLow) = some .measLow ∧
      ({ running .settle 2 false 1 Pins.quiet with timer := 3 }).timer ≠ 0 ∧
      (running .settle 5 false 0 Pins.quiet).timer = 0 := by decide

/-- SettleCountsDownThenReads: a loaded timer. -/
theorem witness_settle_loaded :
    let s := { running .settle 5 false 0 Pins.quiet with timer := 1, script := List.replicate 2 Pins.quiet }
    s.cfg.wf = true ∧ s.fsm = .settle ∧ s.ec = some .softReset ∧ s.timer = settleTicks s.cfg .softReset ∧
      settleTicks s.cfg .softReset + 1 ≤ s.script.length ∧ ∀ p ∈ s.script.take (settleTicks s.cfg .softReset + 1), p.rst = false := by decide

/-- ResponseReadFillsBuffer: nothing, some and too many bytes delivered. -/
theorem witness_response_read :
    (running .respRead 3 false 1 (answer 0 0#48)).pins.rdDone = true ∧
      (running .respRead 4 true 1 (answer 7 0#48)).pins.rdDone = true ∧
      (running .respRead 4 true 1 Pins.quiet).pins.rdDone = false ∧
      (if true then some Cmd.readStatus else requestCommand .softReset) = some .readStatus := by decide

/-- MeasurementResultWritten: a response that validates, and a short one. -/
theorem witness_measurement :
    isMeasurement .measLow ∧ judgedMeas.fsm = .arbitrate ∧ judgedMeas.phase = false ∧
      (6 ≤ judgedMeas.rlen.toNat ∧ crc8 (judgedMeas.rbuf.get 0) (judgedMeas.rbuf.get 1) = judgedMeas.rbuf.get 2 ∧
        crc8 (judgedMeas.rbuf.get 3) (judgedMeas.rbuf.get 4) = judgedMeas.rbuf.get 5) ∧
      ¬ 6 ≤ (judging 0 false 1 5 goodMeas).rlen.toNat := by decide +kernel

/-- StatusAttemptEndsOrRetries: the 9th attempt is retried, and the 10th ends the read. -/
theorem witness_status_attempt :
    let bad : RBuf := ⟨0x80, 0x10, 0, 0, 0, 0⟩
    (judging 5 true 9 3 bad).fsm = .arbitrate ∧ (judging 5 true 9 3 bad).phase = true ∧
      crc8 (bad.get 0) (bad.get 1) ≠ bad.get 2 ∧ (judging 5 true 9 3 bad).attempt ≠ 10#4 ∧
      (judging 4 true 10 3 bad).attempt = 10#4 := by decide +kernel

/-- IllegalRequestCompletesAtOnce. -/
theorem witness_illegal : (6#3 = 6#3 ∨ 6#3 = 7#3) ∧ (atReset (request 6#3)).fsm = .idle := by decide

/-- ShortReadFailsValidation: 5 bytes of 6, 2 of 3 before the 10th attempt, and none. -/
theorem witness_short_read :
    (running .respRead 0 false 1 (answer 5 0x648F035CA37D#48)).pins.rdLen.toNat < respLen .measHigh ∧
      (running .respRead 5 true 9 (answer 2 0x8010E1000000#48)).pins.rdLen.toNat < respLen .readStatus ∧
      (running .respRead 5 true 9 (answer 2 0x8010E1000000#48)).attempt ≠ 10#4 ∧
      (running .respRead 4 true 1 (answer 0 0#48)).pins.rdLen.toNat < respLen .readStatus := by decide

/-- RequestEdgeFrame, and with it every statement about a step that answers: each state of the machine has one. -/
theorem witness_frames :
    exec .measHigh (atReset (request 0#3)) = .next (acceptRequest .measHigh (atReset (request 0#3))) ∧
      (∃ t, exec .softReset writing = .next t) ∧ (∃ t, exec .softReset (running .settle 5 false 0 Pins.quiet) = .next t) ∧
      (∃ t, exec .readSerial reading = .next t) ∧ (∃ t, exec .readStatus judgedStatus = .next t) ∧
      ∃ t, exec (.illegal 6#3) (running .complete 6 false 0 Pins.quiet) = .next t :=
  ⟨rfl, ⟨_, rfl⟩, ⟨_, rfl⟩, ⟨_, rfl⟩, ⟨_, rfl⟩, ⟨_, rfl⟩⟩

/-- ResultRegistersHold: a completion that writes, and an edge that holds. -/
theorem witness_result_hold :
    judgedSerial.pins.rst = false ∧ step judgedSerial = .next (after judgedSerial) ∧
      reading.pins.rst = false ∧ step reading = .next (after reading) := ⟨rfl, rfl, rfl, rfl⟩

/-- ResultRegistersHold, RequestLatchedUntilNextAcceptance: a completion changes the serial number and nothing else of the
data registers; a request is latched, and a stray one is not. -/
theorem witness_latched :
    (atReset (request 3#3)).fsm = .idle ∧ (atReset (request 3#3)).pins.reqValid = true ∧
      step (running .settle 0 false 1 (request 3#3)) = .next (after (running .settle 0 false 1 (request 3#3))) ∧
      (running .settle 0 false 1 (request 3#3)).fsm ≠ .idle :=
  ⟨rfl, rfl, rfl, by decide⟩

/-- OnlyReadCompletionWritesBuffer: an edge of `CMD_WRITE` with a stray `rd_done`. -/
theorem witness_buffer_held :
    let s := running .cmdWrite 0 false 1 (answer 6 0#48)
    s.pins.rst = false ∧ ¬ (s.fsm = .respRead ∧ s.pins.rdDone = true) ∧ step s = .next (after s) :=
  ⟨rfl, by decide, rfl⟩

/-- StatesEnteredInProtocolOrder: an edge into each state; the first legal and illegal codes at the limits 5 and 6, and each way
into `COMPLETE` from `ARBITRATE`. -/
theorem witness_entered :
    nextIs (fun t => t.fsm == .cmdWrite) (step (atReset (request 5#3))) = true ∧
      nextIs (fun t => t.fsm == .cmdWrite) (step (judging 4 true 9 2 ⟨0x80, 0x10, 0xE1, 0, 0, 0⟩)) = true ∧
      nextIs (fun t => t.fsm == .complete) (step judgedMeas) = true ∧
      nextIs (fun t => t.fsm == .complete) (step judgedSerial) = true ∧
      nextIs (fun t => t.fsm == .complete) (step (judging 4 true 1 3 ⟨0x80, 0x10, 0xE1, 0, 0, 0⟩)) = true ∧
      nextIs (fun t => t.fsm == .complete) (step (judging 4 true 10 2 ⟨0x80, 0x10, 0xE1, 0, 0, 0⟩)) = true ∧
      nextIs (fun t => t.fsm == .cmdWrite) (step (atReset (request 0#3))) = true ∧
      nextIs (fun t => t.fsm == .cmdWrite) (step (running .settle 5 false 0 Pins.quiet)) = true ∧
      nextIs (fun t => t.fsm == .settle) (step writing) = true ∧
      nextIs (fun t => t.fsm == .respRead) (step (running .settle 3 false 1 Pins.quiet)) = true ∧
      nextIs (fun t => t.fsm == .arbitrate) (step reading) = true ∧
      nextIs (fun t => t.fsm == .complete) (step (atReset (request 6#3))) = true ∧
      nextIs (fun t => t.fsm == .idle) (step (running .complete 0 false 1 { Pins.quiet with rspAck := true })) = true := by
  decide +kernel

/-! Whole requests, at one tick a millisecond. -/

/-- The transport answers the write at its second edge, and then the settle passes. -/
def writePart (n : Nat) : WritePart :=
  ⟨[Pins.quiet], { Pins.quiet with wrDone := true }, List.replicate n Pins.quiet⟩

/-- One attempt whose read is answered so. -/
def attempt (n : Nat) (len : BitVec 3) (data : BitVec 48) : Attempt := ⟨writePart n, [Pins.quiet], answer len data, Pins.quiet⟩

/-- MeasurementRequestRuns: an attempt that fits, with an answer that validates and one that does not. -/
theorem witness_measurement_run :
    (attempt 16 6 0x648F035CA37D#48).Fits Params.standard .measHigh ∧
      answerValid 2 (attempt 16 6 0x648F035CA37D#48).readDone = true ∧
      (attempt 16 5 0x648F035CA37D#48).Fits Params.standard .measHigh ∧
      answerValid 2 (attempt 16 5 0x648F035CA37D#48).readDone = false ∧ requestCommand .measHigh = some .measHigh := by
  decide +kernel

/-- SerialRequestRuns: the same. -/
theorem witness_serial_run :
    (attempt 2 6 0x123437801283#48).Fits Params.standard .readSerial ∧
      answerValid 2 (attempt 2 6 0x123437801283#48).readDone = true ∧
      answerValid 2 (attempt 2 6 0x123437801282#48).readDone = false := by decide +kernel

/-- The state in which such a request starts. -/
theorem witness_run_start (op : ReqCode) (rest : List Pins) :
    let s := { State.reset with script := request op :: rest }
    Params.standard.wf = true ∧ s.cfg = Params.standard ∧ s.fsm = .idle ∧ (request op).rst = false ∧
      (request op).reqValid = true ∧ (request op).reqOp = op ∧ s.script = request op :: rest :=
  ⟨by decide, rfl, rfl, rfl, rfl, rfl, rfl⟩

/-- StatusRequestRetriesUpToTen, SoftResetRequestRuns: no failed attempt before one that validates; and nine failed attempts
and a 10th that fails. -/
theorem witness_status_run :
    (attempt 2 3 0x801000000000#48).Fits Params.standard .readStatus ∧
      answerValid 1 (attempt 2 3 0x801000000000#48).readDone = false ∧
      (attempt 2 3 0x8010E1000000#48).Fits Params.standard .readStatus ∧
      answerValid 1 (attempt 2 3 0x8010E1000000#48).readDone = true ∧
      (List.replicate 9 (attempt 2 3 0x801000000000#48)).length = 9 ∧
      (writePart 2).Fits Params.standard .softReset := by decide +kernel

/-- The pins of one status attempt that a transport answers, with a read of nothing, so that it fails. -/
def failedAttempt : List Pins := [{ Pins.quiet with wrDone := true }, Pins.quiet, Pins.quiet, answer 0 0#48, Pins.quiet]

/-- The longest request, a SOFT_RESET with ten failed attempts, and a transport that answers while it is asked and nowhere else:
the first write at its second edge, all else at once. -/
def longestRun : State :=
  { running .cmdWrite 5 false 0 Pins.quiet with
    script := [Pins.quiet, { Pins.quiet with wrDone := true }, Pins.quiet, Pins.quiet] ++
      (List.replicate 10 failedAttempt).flatten }

/-- AnsweredRequestReachesComplete: 53 edges (R150, without the accepting edge) and the one left unanswered. -/
theorem witness_answered_run :
    busy longestRun ∧ edgesLeft longestRun = 53 ∧ edgesLeft longestRun + 1 ≤ longestRun.script.length ∧
      answersWithin (edgesLeft longestRun + 1) 1 longestRun = true := by decide +kernel

/-- AnsweredRequestReachesComplete: that state meets the invariant. -/
theorem witness_answered_inv : Inv longestRun := by
  constructor <;> first | decide | (intro h; exact absurd h (by decide))

/-- AnsweredRequestReachesComplete, one edge: a write and a read that are answered, and an edge at which nothing is asked. Their
invariants are witness_inv_writing, witness_inv_reading and witness_inv_status. -/
theorem witness_answered_edge :
    (busy writing ∧ writing.pins.rst = false ∧ writing.pins.wrDone = true) ∧
      (busy reading ∧ reading.pins.rst = false ∧ reading.pins.rdDone = true) ∧
      (busy judgedStatus ∧ judgedStatus.pins.rst = false ∧ judgedStatus.fsm = .arbitrate) := by decide

/-- PhaseFollowsTheRequest: edges that leave a request in progress, with `PHASE` 1 and 0. Their invariants are witness_inv_idle and
witness_inv_writing. -/
theorem witness_phase :
    nextIs (fun t => decide (busy t) && !t.phase) (step (atReset (request 0#3))) = true ∧
      nextIs (fun t => decide (busy t) && !t.phase) (step writing) = true ∧
      nextIs (fun t => decide (busy t) && t.phase) (step (atReset (request 4#3))) = true := by decide

/-- OutputsAreTheRegisters has no hypothesis on the state; each of its cases is met. -/
theorem witness_outputs :
    (running .cmdWrite 5 true 1 Pins.quiet).phase = true ∧ (running .cmdWrite 4 false 1 Pins.quiet).curOp = 4#3 ∧
      ∀ op ∈ [0#3, 1#3, 2#3, 3#3, 5#3], (running .cmdWrite op false 1 Pins.quiet).phase = false := by decide

/-! The checksum, the status word, the parameters. -/

/-- ValidatorRejectsSmallErrors: two valid triplets, and an error that passes. -/
theorem witness_error :
    tripletValid24 0x000081#24 = true ∧ tripletValid24 0x648F03#24 = true ∧ 0x000131#24 ≠ 0#24 ∧
      tripletValid24 (0x000081#24 ^^^ 0x000131#24) = true := by decide +kernel

/-- StatusFieldsAreBitRanges, DefaultLayoutOutputs, SettleTicksFitTimerWidth. -/
theorem witness_parameters :
    StatusLayout.sht3x.wf = true ∧ (atReset Pins.quiet).cfg.layout = StatusLayout.sht3x ∧ Params.standard.wf = true ∧
      15 * Params.standard.ticksPerMs < 2 ^ 4 := by decide

/-- ReliableResultsAreTheResponses: each register, after a completion that lets the caller rely on it; a serial number after a
failure too. -/
theorem witness_reliable :
    nextIs (fun t => t.fsm == .complete && mayRely false .tRaw t && mayRely false .rhRaw t) (step judgedMeas) = true ∧
      nextIs (fun t => t.fsm == .complete && mayRely false .serial t && t.resCode == .ok) (step judgedSerial) = true ∧
      nextIs (fun t => mayRely false .serial t && t.resCode == .checksumMismatch)
        (step { judgedSerial with rlen := 5#3 }) = true ∧
      nextIs (fun t => t.fsm == .complete && mayRely false .status t) (step judgedStatus) = true := by decide +kernel

/-- ReferenceConversionsIncrease. -/
theorem witness_conversion : (0x0000#16 : Word) < 0x0001#16 ∧ (0xFFFE#16 : Word) < 0xFFFF#16 := by decide

end Sys2Proof.Tests
end

section
/-! The settle delay and the width of the timer that counts it (R5, R18, R84). -/

namespace Sys2Proof.Machine

/-- R5: a well-formed configuration has at least one tick in a millisecond. -/
theorem ticksPerMs_pos {p : Params} (hw : p.wf = true) : 0 < p.ticksPerMs := by
  have ⟨_, hticks⟩ := (Bool.and_eq_true _ _).mp hw
  exact of_decide_eq_true hticks

/-- R84, the milliseconds of each command. -/
theorem settleMs_eq_ite (c : Cmd) :
    settleMs c = if c = .measHigh ∨ c = .measMedium ∨ c = .measLow then 15 else 1 := by
  cases c <;> rfl

/-- R5: a width holds the longest settle delay exactly when it is at least `TIMER_W`. A delay of 0 ticks, which a well-formed
configuration does not have, would need no bit, where `timerWidth` is 1. -/
theorem timerWidth_le_iff {p : Params} (hw : p.wf = true) (w : Nat) :
    timerWidth p ≤ w ↔ settleMsMeas * p.ticksPerMs < 2 ^ w := by
  have hne : settleMsMeas * p.ticksPerMs ≠ 0 := (Nat.mul_pos (by decide) (ticksPerMs_pos hw)).ne'
  calc timerWidth p ≤ w
    _ ↔ (settleMsMeas * p.ticksPerMs).log2 < w := Nat.succ_le_iff
    _ ↔ settleMsMeas * p.ticksPerMs < 2 ^ w := Nat.log2_lt hne

/-- R18: the timer holds the settle ticks of every command. -/
theorem settleTicks_lt_two_pow_timerWidth {p : Params} (hw : p.wf = true) (c : Cmd) :
    settleTicks p c < 2 ^ timerWidth p :=
  (settleTicks_le p c).trans_lt ((timerWidth_le_iff hw _).mp le_rfl)

/-- Settles O40: `timerWidth_le_iff` from left to right gives that the ticks fit, from right to left that no smaller width
holds 15 ms. -/
theorem settleTicksFitTimerWidth : Obligations.SettleTicksFitTimerWidth := by
  intro p hw
  refine ⟨fun c => ⟨?_, settleTicks_lt_two_pow_timerWidth hw c⟩, fun w h15 => (timerWidth_le_iff hw w).mpr h15⟩
  rw [settleTicks, settleMs_eq_ite]

end Sys2Proof.Machine
end

section
/-! What an arbitration leaves unchanged, and which request has the command it judges (R78 to R82, R90, R104). -/

namespace Sys2Proof.Machine

variable {s : State} {c : Cmd}

/-- R78: a measurement ends, and it writes the raw words alone. -/
@[simp] theorem arbitrateMeasurement_frame (s : State) :
    (arbitrateMeasurement s).fsm = .complete ∧ (arbitrateMeasurement s).curOp = s.curOp ∧
      (arbitrateMeasurement s).curAddr = s.curAddr ∧ (arbitrateMeasurement s).rlen = s.rlen ∧
      (arbitrateMeasurement s).rbuf = s.rbuf ∧ (arbitrateMeasurement s).resSerial = s.resSerial ∧
      (arbitrateMeasurement s).resStatus = s.resStatus ∧ (arbitrateMeasurement s).resResetOk = s.resResetOk ∧
      (arbitrateMeasurement s).cfg = s.cfg := by
  obtain ⟨_, h⟩ | ⟨_, h⟩ := arbitrateMeasurement_cases s <;> simp [h]

/-- R79: a serial-number request ends, and it writes the serial number alone. -/
@[simp] theorem arbitrateSerial_frame (s : State) :
    (arbitrateSerial s).fsm = .complete ∧ (arbitrateSerial s).curOp = s.curOp ∧
      (arbitrateSerial s).curAddr = s.curAddr ∧ (arbitrateSerial s).rlen = s.rlen ∧
      (arbitrateSerial s).rbuf = s.rbuf ∧ (arbitrateSerial s).resTRaw = s.resTRaw ∧
      (arbitrateSerial s).resRhRaw = s.resRhRaw ∧ (arbitrateSerial s).resStatus = s.resStatus ∧
      (arbitrateSerial s).resResetOk = s.resResetOk ∧ (arbitrateSerial s).cfg = s.cfg := by
  obtain ⟨_, h⟩ | ⟨_, h⟩ := arbitrateSerial_cases s <;> simp [h]

/-- R80, R91: a status attempt writes neither the raw words nor the serial number. -/
@[simp] theorem arbitrateStatus_frame (b : Bool) (s : State) :
    (arbitrateStatus b s).curOp = s.curOp ∧ (arbitrateStatus b s).phase = s.phase ∧
      (arbitrateStatus b s).curAddr = s.curAddr ∧ (arbitrateStatus b s).rlen = s.rlen ∧
      (arbitrateStatus b s).rbuf = s.rbuf ∧ (arbitrateStatus b s).resTRaw = s.resTRaw ∧
      (arbitrateStatus b s).resRhRaw = s.resRhRaw ∧ (arbitrateStatus b s).resSerial = s.resSerial ∧
      (arbitrateStatus b s).cfg = s.cfg := by
  obtain ⟨_, h⟩ | ⟨_, _, h⟩ | ⟨_, _, h⟩ := arbitrateStatus_cases b s <;> simp [h]

/-- R104: only a SOFT_RESET has its result register written by a status attempt. -/
@[simp] theorem arbitrateStatus_false_resResetOk (s : State) :
    (arbitrateStatus false s).resResetOk = s.resResetOk := by
  obtain ⟨_, h⟩ | ⟨_, _, h⟩ | ⟨_, _, h⟩ := arbitrateStatus_cases false s <;> simp [h]

/-- R91: a status attempt that does not end the request is followed by a retry. -/
theorem arbitrateStatus_complete_or_retry (b : Bool) (s : State) :
    (arbitrateStatus b s).fsm = .complete ∨ (s.attempt ≠ nAttempts ∧ arbitrateStatus b s = s.retry) := by
  obtain ⟨_, h⟩ | ⟨_, _, h⟩ | ⟨_, ha, h⟩ := arbitrateStatus_cases b s
  · exact .inl (by simp [h])
  · exact .inl (by simp [h])
  · exact .inr ⟨ha, h⟩

/-- R82: a command other than READ_STATUS is the request's own. -/
theorem requestCommand_of_ec (hc : s.ec = some c) (hne : c ≠ .readStatus) :
    requestCommand (decodeReq s.curOp) = some c := by
  obtain ⟨_, rfl⟩ | ⟨_, h⟩ := ec_some hc
  · exact absurd rfl hne
  · exact h

theorem isMeasurement_of_ec (hc : s.ec = some c) (hm : c = .measHigh ∨ c = .measMedium ∨ c = .measLow) :
    Safety.isMeasurement (decodeReq s.curOp) := by
  obtain rfl | rfl | rfl := hm
  · exact .inl (requestCommand_eq_some (requestCommand_of_ec hc (by decide)))
  · exact .inr (.inl (requestCommand_eq_some (requestCommand_of_ec hc (by decide))))
  · exact .inr (.inr (requestCommand_eq_some (requestCommand_of_ec hc (by decide))))

theorem readSerial_of_ec (hc : s.ec = some .readSerial) : decodeReq s.curOp = .readSerial :=
  requestCommand_eq_some (requestCommand_of_ec hc (by decide))

/-- R53: the two codes that name no command. -/
theorem requestCommand_decodeReq_eq_none : ∀ op : ReqCode,
    requestCommand (decodeReq op) = none ↔ op = 6#3 ∨ op = 7#3 := by decide

end Sys2Proof.Machine

namespace Sys2Proof.Safety

open Sys2Proof.Machine

variable {s : State}

/-- R15, R82: while a request in progress sends READ_STATUS, `PHASE` is 1. -/
theorem Inv.phase_of_ec_readStatus (hI : Inv s) (hb : busy s) (hc : s.ec = some .readStatus) : s.phase = true := by
  obtain ⟨hp, _⟩ | ⟨_, hreq⟩ := ec_some hc
  · exact hp
  · exact hI.phase_status hb (requestCommand_eq_some hreq)

/-- R15, R82: only READ_STATUS and SOFT_RESET send the command READ_STATUS. -/
theorem Inv.readsStatus_of_ec (hI : Inv s) (hb : busy s) (hc : s.ec = some .readStatus) :
    readsStatus (decodeReq s.curOp) :=
  hI.phase_one hb (hI.phase_of_ec_readStatus hb hc)

end Sys2Proof.Safety
end

section
/-! The latched request, the response buffer and the parameters: which edges write them (R11, R14, R16, R19, R20). -/

namespace Sys2Proof.Machine

variable {s u : State}

/-- R86: an acceptance latches the request code and the address, legal or not. -/
theorem acceptRequest_latches (i : Instr) (s : State) :
    (acceptRequest i s).curOp = encodeReq i ∧ (acceptRequest i s).curAddr = s.pins.devAddr := by
  cases h : requestCommand i <;> simp [acceptRequest, h]

/-- R14, R16: without a reset, only an acceptance writes `CUR_OP` and `CUR_ADDR`. -/
theorem Transition.keeps_latched (h : Transition s u) (hr : s.pins.rst = false)
    (hn : ¬ (s.fsm = .idle ∧ s.pins.reqValid = true)) : u.curOp = s.curOp ∧ u.curAddr = s.curAddr := by
  cases h with
  | reset hrst => simp [hrst] at hr
  | acceptIllegal _ hf hv => exact absurd ⟨hf, hv⟩ hn
  | accept _ _ hf hv => exact absurd ⟨hf, hv⟩ hn
  | _ => simp

/-- R11. -/
theorem Transition.keeps_cfg (h : Transition s u) : u.cfg = s.cfg := by
  cases h <;> simp

/-- R19, R20: without a reset, only a read completion writes `RBUF` and `RLEN`. -/
theorem Transition.keeps_buffer (h : Transition s u) (hr : s.pins.rst = false)
    (hn : ¬ (s.fsm = .respRead ∧ s.pins.rdDone = true)) : u.rbuf = s.rbuf ∧ u.rlen = s.rlen := by
  cases h with
  | reset hrst => simp [hrst] at hr
  | readDone _ _ hf hd => exact absurd ⟨hf, hd⟩ hn
  | _ => simp

/-- Settles O26: an acceptance latches its pins, and no other transition without a reset writes the two registers. -/
theorem requestLatchedUntilNextAcceptance : Obligations.RequestLatchedUntilNextAcceptance := by
  intro s t hstep hr
  obtain ⟨hw, u, hu, rfl⟩ := step_next hstep
  refine ⟨fun ⟨hf, hv⟩ => ?_, fun hn => hu.keeps_latched hr hn⟩
  rw [step_idle_accept hw hr hf hv, Host.Outcome.next.injEq] at hstep
  obtain ⟨hop, haddr⟩ := acceptRequest_latches (decodeReq s.pins.reqOp) s
  rw [encodeReq_decodeReq] at hop
  rw [← hstep]
  exact ⟨hop, haddr⟩

/-- Settles O27, transition by transition. -/
theorem onlyReadCompletionWritesBuffer : Obligations.OnlyReadCompletionWritesBuffer := by
  intro s t hstep
  obtain ⟨_, u, hu, rfl⟩ := step_next hstep
  exact ⟨hu.keeps_cfg, fun hr hn => hu.keeps_buffer hr hn⟩

end Sys2Proof.Machine
end

section
/-! The result registers: a completion writes those that its request names, and nothing else writes any (R30). -/

namespace Sys2Proof.Machine

open Sys2Proof.Safety

variable {s u : State}

/-- R30: an edge that is neither a reset nor a completion writes no result register. -/
theorem Transition.keeps_results (h : Transition s u) (hr : s.pins.rst = false)
    (hn : ¬ (s.fsm ≠ .complete ∧ u.fsm = .complete)) :
    u.resCode = s.resCode ∧ u.resAttempts = s.resAttempts ∧ u.resTRaw = s.resTRaw ∧ u.resRhRaw = s.resRhRaw ∧
      u.resSerial = s.resSerial ∧ u.resStatus = s.resStatus ∧ u.resResetOk = s.resResetOk := by
  cases h with
  | reset hrst => simp [hrst] at hr
  | acceptIllegal _ hf => simp [hf] at hn
  | judgeMeasurement _ _ hf => simp [hf] at hn
  | judgeSerial _ hf => simp [hf] at hn
  | judgeStatus _ hf =>
    obtain hcomplete | ⟨_, hretry⟩ := arbitrateStatus_complete_or_retry (decide (decodeReq s.curOp = .softReset)) s
    · simp [hf, hcomplete] at hn
    · simp [hretry]
  | _ => simp

/-- R30: without a reset, a data result register is written only in a request that names it. -/
theorem Transition.writes_named_results (h : Transition s u) (hI : Inv s) (hr : s.pins.rst = false) :
    (¬ isMeasurement (decodeReq u.curOp) → u.resTRaw = s.resTRaw ∧ u.resRhRaw = s.resRhRaw) ∧
    (decodeReq u.curOp ≠ .readSerial → u.resSerial = s.resSerial) ∧
    (decodeReq u.curOp ≠ .readStatus → decodeReq u.curOp ≠ .softReset → u.resStatus = s.resStatus) ∧
    (decodeReq u.curOp ≠ .softReset → u.resResetOk = s.resResetOk) := by
  cases h with
  | reset hrst => simp [hrst] at hr
  | judgeMeasurement c _ _ hc hm =>
    have hmeas := isMeasurement_of_ec hc hm
    simp [hmeas]
  | judgeSerial _ _ hc => simp [readSerial_of_ec hc]
  | judgeStatus _ hf hc =>
    obtain hreq | hreq := hI.readsStatus_of_ec (by simp [busy, hf]) hc <;> simp [hreq]
  | _ => simp

/-- R21, R30: without a reset, `RES_VALID` = 0 after every edge that does not leave the block in `COMPLETE`. -/
theorem Transition.resValid_false (h : Transition s u) (hI : Inv s) (hr : s.pins.rst = false)
    (hu : u.fsm ≠ .complete) : u.resValid = false := by
  cases h with
  | reset hrst => simp [hrst] at hr
  | completeWait _ hf => exact absurd hf hu
  | completeAck => rfl
  | acceptIllegal => simp at hu
  | judgeMeasurement => simp at hu
  | judgeSerial => simp at hu
  | judgeStatus _ hf =>
    obtain hcomplete | ⟨_, hretry⟩ := arbitrateStatus_complete_or_retry (decide (decodeReq s.curOp = .softReset)) s
    · exact absurd hcomplete hu
    · simpa [hretry] using hI.resValid_false (by simp [hf])
  | idleWait _ hf | accept _ _ hf | writeWait _ hf | writeDone _ _ hf | settleTick _ hf | settleReset _ _ hf
  | settleRead _ _ hf | readWait _ hf | readDone _ _ hf => simpa using hI.resValid_false (by simp [hf])

/-- Settles O25. -/
theorem resultRegistersHold : Obligations.ResultRegistersHold := by
  intro s t hI hstep hr
  obtain ⟨_, u, hu, rfl⟩ := step_next hstep
  obtain ⟨hmeas, hserial, hstatus, hreset⟩ := hu.writes_named_results hI hr
  exact ⟨hu.keeps_results hr, hmeas, hserial, hstatus, hreset, hu.resValid_false hI hr⟩

end Sys2Proof.Machine
end

section
/-! `PHASE` follows the request (R15). -/

namespace Sys2Proof.Safety

open Sys2Proof.Machine

variable {s u : State}

/-- R15, R82: a request in progress is legal, and its `PHASE` is 1 exactly in READ_STATUS and in the status attempts of
SOFT_RESET. -/
def PhaseFits (s : State) : Prop :=
  busy s → requestCommand (decodeReq s.curOp) ≠ none ∧
    (s.phase = true ↔
      decodeReq s.curOp = .readStatus ∨ (decodeReq s.curOp = .softReset ∧ 1 ≤ s.attempt.toNat))

/-- The invariant has it, since a SOFT_RESET has `ATTEMPT` = 0 exactly while `PHASE` = 0. -/
theorem Inv.phaseFits (hI : Inv s) : PhaseFits s := by
  intro hb
  have hzero : s.attempt = 0#4 ↔ s.attempt.toNat = 0 := BitVec.toNat_inj.symm
  have hattempt := hI.attempt_zero hb
  refine ⟨hI.busy_legal hb, fun hp => ?_, ?_⟩
  · obtain hreq | hreq := hI.phase_one hb hp
    · exact .inl hreq
    · have hne : s.attempt.toNat ≠ 0 := fun h0 => by simpa [hp] using hattempt.mp (hzero.mpr h0)
      exact .inr ⟨hreq, Nat.pos_of_ne_zero hne⟩
  · rintro (hreq | ⟨hreq, hpos⟩)
    · exact hI.phase_status hb hreq
    · by_contra hp
      have h0 := hzero.mp (hattempt.mpr ⟨hreq, by simpa using hp⟩)
      omega

/-- R86: an accepted request starts with the `PHASE` and the `ATTEMPT` of its kind. -/
theorem phaseFits_accept {c : Cmd} {op : ReqCode} (hc : requestCommand (decodeReq op) = some c) (s : State)
    (addr : DevAddr) :
    PhaseFits ((s.latch op addr).beginAttempts (c == .readStatus) (if c = .softReset then 0#4 else 1#4)) := by
  intro _
  have hreq := requestCommand_eq_some hc
  cases c <;> simp [hreq, requestCommand]

/-- R88: the settle of the reset command leads to the first status attempt of a SOFT_RESET. -/
theorem phaseFits_settleReset {c : Cmd} (hc : s.ec = some c) (hl : respLen c = 0) :
    PhaseFits (s.beginAttempts true 1#4) := by
  obtain rfl := (respLen_eq_zero c).mp hl
  have hreq : decodeReq s.curOp = .softReset := requestCommand_eq_some (requestCommand_of_ec hc (by decide))
  intro _
  simp [hreq, requestCommand]

/-- R91: a retry keeps `PHASE` = 1 and has another attempt behind it. -/
theorem Inv.phaseFits_retry (hI : Inv s) (hb : busy s) (hc : s.ec = some .readStatus) : PhaseFits s.retry := by
  have hnext : 1 ≤ (s.attempt + 1#4).toNat := by
    have hle := hI.attempt_le
    rw [BitVec.toNat_add_of_lt (by simp; omega)]
    simp
  intro _
  obtain hreq | hreq := hI.readsStatus_of_ec hb hc
  · simp [hI.phase_of_ec_readStatus hb hc, hreq, requestCommand]
  · simpa [hI.phase_of_ec_readStatus hb hc, hreq, requestCommand] using hnext

/-- R15: every transition from a state that meets the invariant. -/
theorem Inv.phaseFits_transition (hI : Inv s) (h : Transition s u) : PhaseFits u := by
  cases h with
  | accept _ _ _ _ hc => exact phaseFits_accept hc s _
  | settleReset _ _ _ _ hc hl => exact phaseFits_settleReset hc hl
  | judgeStatus _ hf hc =>
    obtain hcomplete | ⟨_, hretry⟩ := arbitrateStatus_complete_or_retry (decide (decodeReq s.curOp = .softReset)) s
    · exact fun hb => absurd hcomplete hb.2
    · rw [hretry]
      exact hI.phaseFits_retry (by simp [busy, hf]) hc
  | idleWait | writeWait | readWait | completeWait => exact hI.phaseFits
  | writeDone _ _ hf | settleTick _ hf | settleRead _ _ hf | readDone _ _ hf =>
    exact fun _ => hI.phaseFits (by simp [busy, hf])
  | reset | acceptIllegal | judgeMeasurement | judgeSerial | completeAck => simp [PhaseFits, busy]

/-- Settles O44. -/
theorem phaseFollowsTheRequest : Obligations.PhaseFollowsTheRequest := by
  intro s t hI hstep
  obtain ⟨_, u, hu, rfl⟩ := step_next hstep
  have hfits : PhaseFits u := hI.phaseFits_transition hu
  refine ⟨fun hb => (hfits hb).2, fun hb => ?_⟩
  obtain ⟨hlegal, _⟩ := hfits hb
  simpa [requestCommand_decodeReq_eq_none] using hlegal

end Sys2Proof.Safety
end

section
/-! Which pins an edge reads (R32, R86, R125, R127): two steps are compared whose states differ in the pins of the coming
edge alone. Where an edge reads no pin at all, the edge and the environment's moving on commute. -/

namespace Sys2Proof.Machine

/-- The state `s` with the pins `p` at the coming edge and `rest` at the later ones. -/
abbrev State.atEdge (s : State) (rest : List Pins) (p : Pins) : State := { s with script := p :: rest }

section CommuteWithNextEdge
variable (s : State)

theorem verdict_nextEdge (n : Nat) : verdict n s.nextEdge = verdict n s := rfl

theorem arbitrateMeasurement_nextEdge : (arbitrateMeasurement s).nextEdge = arbitrateMeasurement s.nextEdge := by
  cases h : verdict 2 s <;> simp only [arbitrateMeasurement, verdict_nextEdge, h] <;> rfl

theorem arbitrateSerial_nextEdge : (arbitrateSerial s).nextEdge = arbitrateSerial s.nextEdge := by
  cases h : verdict 2 s <;> simp only [arbitrateSerial, verdict_nextEdge, h] <;> rfl

theorem arbitrateStatus_nextEdge (b : Bool) : (arbitrateStatus b s).nextEdge = arbitrateStatus b s.nextEdge := by
  by_cases h : (verdict 1 s || s.attempt == nAttempts) = true <;>
    simp only [arbitrateStatus, verdict_nextEdge, nextEdge_attempt, h] <;> cases b <;> rfl

/-- R90: `ARBITRATE` reads no pin. -/
theorem arbitrateEdge_nextEdge (b : Bool) (ec : Option Cmd) :
    onNext State.nextEdge (arbitrateEdge b ec s) = arbitrateEdge b ec s.nextEdge := by
  cases ec with
  | none => rfl
  | some c =>
    cases c <;> simp only [arbitrateEdge, onNext, arbitrateMeasurement_nextEdge, arbitrateSerial_nextEdge,
      arbitrateStatus_nextEdge]

/-- R88: `SETTLE` reads no pin. -/
theorem settleEdge_nextEdge (ec : Option Cmd) :
    onNext State.nextEdge (settleEdge ec s) = settleEdge ec s.nextEdge := by
  by_cases ht : s.timer = 0 <;>
    simp only [settleEdge, nextEdge_timer, ne_eq, ht, not_true, not_false_iff, if_true, if_false]
  case neg => rfl
  case pos =>
    cases ec with
    | none => rfl
    | some c => by_cases hl : respLen c = 0 <;> simp only [hl, if_true, if_false] <;> rfl

end CommuteWithNextEdge

section OwnPins
variable (s : State) (rest : List Pins) {p q : Pins}

/-- R86: an acceptance reads `req_op`, through the request `i`, and `cfg_dev_addr`. -/
theorem acceptRequest_reads (i : Instr) (haddr : p.devAddr = q.devAddr) :
    (acceptRequest i (s.atEdge rest p)).nextEdge = (acceptRequest i (s.atEdge rest q)).nextEdge := by
  cases h : requestCommand i <;> simp only [acceptRequest, h, State.pins, List.headD_cons, haddr] <;> rfl

/-- R87: `CMD_WRITE` reads `wr_done`. -/
theorem cmdWriteEdge_reads (ec : Option Cmd) (hdone : p.wrDone = q.wrDone) :
    onNext State.nextEdge (cmdWriteEdge ec (s.atEdge rest p)) =
      onNext State.nextEdge (cmdWriteEdge ec (s.atEdge rest q)) := by
  cases hd : q.wrDone <;> simp only [cmdWriteEdge, State.pins, List.headD_cons, hdone, hd]
  case false => rfl
  case true => cases ec <;> rfl

/-- R89: a read completion reads `rd_len` and `rd_data`. -/
theorem storeResponse_reads (n : Nat) (hlen : p.rdLen = q.rdLen) (hdata : p.rdData = q.rdData) :
    ((s.atEdge rest p).storeResponse n).nextEdge = ((s.atEdge rest q).storeResponse n).nextEdge := by
  cases p
  cases q
  cases hlen
  cases hdata
  rfl

/-- R89: `RESP_READ` reads `rd_done`, and `rd_len` and `rd_data` with it. -/
theorem respReadEdge_reads (ec : Option Cmd) (hdone : p.rdDone = q.rdDone)
    (hread : p.rdDone = true → p.rdLen = q.rdLen ∧ p.rdData = q.rdData) :
    onNext State.nextEdge (respReadEdge ec (s.atEdge rest p)) =
      onNext State.nextEdge (respReadEdge ec (s.atEdge rest q)) := by
  cases hd : p.rdDone <;> simp only [respReadEdge, State.pins, List.headD_cons, ← hdone, hd]
  case false => rfl
  case true =>
    obtain ⟨hlen, hdata⟩ := hread hd
    cases ec with
    | none => rfl
    | some c => simp [onNext, storeResponse_reads s rest _ hlen hdata]

/-- R93: `COMPLETE` reads `rsp_ack`. -/
theorem completeEdge_reads (hack : p.rspAck = q.rspAck) :
    onNext State.nextEdge (completeEdge (s.atEdge rest p)) =
      onNext State.nextEdge (completeEdge (s.atEdge rest q)) := by
  cases ha : q.rspAck <;> simp only [completeEdge, State.pins, List.headD_cons, hack, ha] <;> rfl

/-- R85, R86: `IDLE` reads `req_valid`, and `req_op` and `cfg_dev_addr` with it. -/
theorem step_idle_reads (hw : s.cfg.wf = true) (hf : s.fsm = .idle) (hp : (s.atEdge rest p).pins.rst = false)
    (hq : (s.atEdge rest q).pins.rst = false) (hvalid : p.reqValid = q.reqValid)
    (hreq : p.reqValid = true → p.reqOp = q.reqOp ∧ p.devAddr = q.devAddr) :
    step (s.atEdge rest p) = step (s.atEdge rest q) := by
  have hwp : (s.atEdge rest p).cfg.wf = true := hw
  have hwq : (s.atEdge rest q).cfg.wf = true := hw
  cases hv : q.reqValid with
  | false =>
    rw [step_idle_wait hwp hp hf (hvalid.trans hv), step_idle_wait hwq hq hf hv]
    rfl
  | true =>
    obtain ⟨hop, haddr⟩ := hreq (hvalid.trans hv)
    rw [step_idle_accept hwp hp hf (hvalid.trans hv), step_idle_accept hwq hq hf hv,
      acceptRequest_reads s rest _ haddr]
    simp [State.pins, hop]

end OwnPins

/-- Settles O14: the pins that the edge of each state reads, state by state. -/
theorem eachStateReadsOnlyItsOwnPins : Obligations.EachStateReadsOnlyItsOwnPins := by
  intro s p q rest hrst hidle hwrite hread hcomplete
  change step (s.atEdge rest p) = step (s.atEdge rest q)
  have hrst : (s.atEdge rest p).pins.rst = (s.atEdge rest q).pins.rst := hrst
  have hcfg : (s.atEdge rest p).cfg.wf = (s.atEdge rest q).cfg.wf := rfl
  cases hwq : (s.atEdge rest q).cfg.wf with
  | false => rw [step_illFormed (hcfg.trans hwq), step_illFormed hwq]
  | true =>
    have hwp := hcfg.trans hwq
    cases hq : (s.atEdge rest q).pins.rst with
    | true =>
      rw [step_rst hwp (hrst.trans hq), step_rst hwq hq]
      rfl
    | false =>
      have hp := hrst.trans hq
      cases hf : s.fsm with
      | idle =>
        obtain ⟨hvalid, hreq⟩ := hidle hf
        exact step_idle_reads s rest hwq hf hp hq hvalid hreq
      | cmdWrite =>
        rw [step_cmdWrite hwp hp hf, step_cmdWrite hwq hq hf]
        exact cmdWriteEdge_reads s rest _ (hwrite hf)
      | settle =>
        rw [step_settle hwp hp hf, step_settle hwq hq hf, settleEdge_nextEdge, settleEdge_nextEdge]
        rfl
      | respRead =>
        obtain ⟨hdone, hdelivered⟩ := hread hf
        rw [step_respRead hwp hp hf, step_respRead hwq hq hf]
        exact respReadEdge_reads s rest _ hdone hdelivered
      | arbitrate =>
        rw [step_arbitrate hwp hp hf, step_arbitrate hwq hq hf, arbitrateEdge_nextEdge, arbitrateEdge_nextEdge]
        rfl
      | complete =>
        rw [step_complete hwp hp hf, step_complete hwq hq hf]
        exact completeEdge_reads s rest (hcomplete hf)

end Sys2Proof.Machine
end

section
/-! The outputs made from the effective command (R35, R82, R83). -/

namespace Sys2Proof.Machine

variable {s : State} {c : Cmd}

/-- R82: `PHASE` = 1, or a READ_STATUS request, sends READ_STATUS. -/
theorem ec_readStatus (h : s.phase = true ∨ s.curOp = 4#3) : s.ec = some .readStatus := by
  obtain hp | hop := h
  · simp [ec_eq, effectiveCommand, hp]
  · rw [ec_eq, hop]
    cases s.phase <;> rfl

/-- R82: with `PHASE` = 0 the request's own command is sent. -/
theorem ec_of_phase_false {op : ReqCode} (hp : s.phase = false) (hop : s.curOp = op) :
    s.ec = requestCommand (decodeReq op) := by
  simp [ec_eq, effectiveCommand, hp, hop]

/-- R35, R67, R83: the frame and the requested count are those of the effective command. -/
theorem outputs_of_ec (h : s.ec = some c) :
    s.outputs.wrData = some (cmdCode s.cfg c) ∧ s.outputs.rdCount = some (BitVec.ofNat 3 (respLen c)) := by
  simp [State.outputs, h, commandFrame]

/-- R62: what `res_code` shows for each result code. -/
theorem outputs_resCode {code : ResCode} (h : s.resCode = code) : s.outputs.resCode = code.bits := by
  rw [← h]
  rfl

/-- R31, R109: the reserved outputs, in the order of the layout. -/
theorem outputs_reserved (s : State) : s.outputs.st.reserved =
    s.cfg.layout.reserved.map fun r => ⟨r, s.resStatus.extractLsb' r.lo (r.hi - r.lo + 1)⟩ :=
  List.map_congr_left fun r _ => readReserved_eq r s.resStatus

/-- Settles O43: the registers by definition, the frame and the count by `outputs_of_ec`. -/
theorem outputsAreTheRegisters : Obligations.OutputsAreTheRegisters := by
  intro s
  refine ⟨⟨rfl, rfl, rfl, rfl, rfl, rfl⟩, ⟨outputs_resCode, outputs_resCode, outputs_resCode, outputs_resCode⟩,
    ⟨rfl, rfl, rfl, rfl, rfl, rfl⟩, ⟨fun h => outputs_of_ec (ec_readStatus h), ?_, ?_, ?_, ?_, ?_⟩,
    ⟨rfl, rfl, rfl, rfl, rfl, rfl, rfl, outputs_reserved s⟩⟩
  all_goals exact fun hp hop => outputs_of_ec (ec_of_phase_false hp hop)

end Sys2Proof.Machine
end

section
/-! The bus transactions (R38, R43, R82, R83): each is made from the effective command. -/

namespace Sys2Proof.Machine

variable {s : State} {e : BusEvent} {c : Cmd}

/-- The two transactions an edge can end, at `CUR_ADDR`: the write of the effective command's frame, and the read of its
response. -/
theorem busEvent_cases (h : s.busEvent = some e) :
    ∃ c, s.ec = some c ∧
      ((s.fsm = .cmdWrite ∧ e = .write s.curAddr (wireBytes (commandFrame s.cfg c))) ∨
        (s.fsm = .respRead ∧ e = .read s.curAddr (BitVec.ofNat 3 (respLen c)))) := by
  cases hc : s.ec with
  | none => cases hf : s.fsm <;> simp [State.busEvent, State.outputs, hc, hf] at h
  | some c =>
    refine ⟨c, rfl, ?_⟩
    cases hf : s.fsm with
    | cmdWrite =>
      obtain ⟨_, _, he⟩ : s.pins.rst = false ∧ s.pins.wrDone = true ∧
          .write s.curAddr (wireBytes (commandFrame s.cfg c)) = e := by
        simpa [State.busEvent, State.outputs, hc, hf] using h
      exact .inl ⟨rfl, he.symm⟩
    | respRead =>
      obtain ⟨_, _, he⟩ : s.pins.rst = false ∧ s.pins.rdDone = true ∧
          .read s.curAddr (BitVec.ofNat 3 (respLen c)) = e := by
        simpa [State.busEvent, State.outputs, hc, hf] using h
      exact .inr ⟨rfl, he.symm⟩
    | idle | settle | arbitrate | complete => simp [State.busEvent, hf] at h

/-- R83: a command that has a response reads one triplet or two. -/
theorem respLen_eq_three_or_six (hne : c ≠ .softReset) : respLen c = 3 ∨ respLen c = 6 := by
  cases c with
  | softReset => exact absurd rfl hne
  | readStatus => exact .inl rfl
  | measHigh | measMedium | measLow | readSerial => exact .inr rfl

/-- Settles O29: the invariant shuts out a read for the reset command, the only one without a response. -/
theorem busTransactionsWellFormed : Obligations.BusTransactionsWellFormed := by
  intro s e hI h
  obtain ⟨c, hc, ⟨hf, he⟩ | ⟨hf, he⟩⟩ := busEvent_cases h
  · exact ⟨c, hc, .inl ⟨he, hf⟩⟩
  · have hne : c ≠ .softReset := fun heq => hI.read_not_reset (.inl hf) (heq ▸ hc)
    exact ⟨c, hc, .inr ⟨he, hf, respLen_eq_three_or_six hne⟩⟩

end Sys2Proof.Machine
end

section
/-! The request that a step runs (R14, R51, R86), and the byte that carries its code (R53; log 15). -/

namespace Sys2Proof

/-- A request code in one byte decodes to its request. -/
theorem decode_setWidth_cons (op : ReqCode) (rest : List Byte) :
    decode (op.setWidth 8 :: rest) = .ok (decodeReq op, rest) := by
  have hhigh : (op.setWidth 8).extractLsb' 3 5 = 0#5 := by revert op; decide
  have hlow : (op.setWidth 8).extractLsb' 0 3 = op := by revert op; decide
  rw [decode, if_pos hhigh, hlow]

end Sys2Proof

namespace Sys2Proof.Machine

variable {s : State} {i : Instr}

/-- R51, R86: in `IDLE`, a request presented on the caller port is fetched. -/
theorem fetch_idle (hf : s.fsm = .idle) (hv : s.pins.reqValid = true) : s.fetch = some (decodeReq s.pins.reqOp) := by
  simp [State.fetch, hf, hv]

/-- R14: outside `IDLE`, the request that `CUR_OP` holds is fetched. -/
theorem fetch_of_ne_idle (hf : s.fsm ≠ .idle) : s.fetch = some (decodeReq s.curOp) := by
  cases h : s.fsm with
  | idle => exact absurd h hf
  | cmdWrite | settle | respRead | arbitrate | complete => simp [State.fetch, h]

/-- An edge without a reset runs the fetched request, and then the environment moves on. -/
theorem step_of_fetch (hw : s.cfg.wf = true) (hr : s.pins.rst = false) (h : s.fetch = some i) :
    step s = onNext State.nextEdge (exec i s) := by
  simp [step, hw, hr, h]

/-- Settles O4: the bytes hold the code of the request that the edge fetches. -/
theorem stepRunsDecodedRequest : Obligations.StepRunsDecodedRequest := by
  intro s i bs rest hw hr hdecode hbytes
  refine step_of_fetch hw hr ?_
  obtain ⟨hf, hv, rfl⟩ | ⟨hf, rfl⟩ := hbytes
  · obtain rfl : decodeReq s.pins.reqOp = i := by simpa [decode_setWidth_cons] using hdecode
    exact fetch_idle hf hv
  · obtain rfl : decodeReq s.curOp = i := by simpa [decode_setWidth_cons] using hdecode
    exact fetch_of_ne_idle hf

end Sys2Proof.Machine
end

section
/-! Decoding and encoding undo each other (R53, R54, R64; the byte that carries a code: log 15). -/

namespace Sys2Proof

open Machine

/-- A byte whose five high bits are 0 is its three low bits, widened. -/
theorem setWidth_low_of_high_eq_zero {b : Byte} (h : b.extractLsb' 3 5 = 0#5) :
    (b.extractLsb' 0 3).setWidth 8 = b := by
  revert b
  decide

/-- R64: bytes decode exactly when the first of them carries a request code. -/
theorem decode_eq_ok_iff {bs rest : List Byte} {i : Instr} :
    decode bs = .ok (i, rest) ↔ ∃ op : ReqCode, bs = op.setWidth 8 :: rest ∧ decodeReq op = i := by
  constructor
  · intro h
    cases bs with
    | nil => simp [decode] at h
    | cons b tail =>
      by_cases hhigh : b.extractLsb' 3 5 = 0#5
      · obtain ⟨hi, rfl⟩ : decodeReq (b.extractLsb' 0 3) = i ∧ tail = rest := by simpa [decode, hhigh] using h
        exact ⟨b.extractLsb' 0 3, by rw [setWidth_low_of_high_eq_zero hhigh], hi⟩
      · simp [decode, hhigh] at h
  · rintro ⟨op, rfl, rfl⟩
    exact decode_setWidth_cons op rest

/-- R66: the decoder reads a code's table word as the request of that code. -/
theorem decodeTableWord_reqCode (op : ReqCode) : decodeTableWord 8 op.toNat = some (decodeReq op) := by
  have hbytes : tableBytes 8 op.toNat = [op.setWidth 8] := by revert op; decide
  rw [decodeTableWord, hbytes, decode_setWidth_cons]

/-- Settles O1: the byte of an encoding carries the request's code, and a well-formed request is the one of its code. -/
theorem decodeReadsBackEveryEncoding : Obligations.DecodeReadsBackEveryEncoding := by
  intro i rest hw
  exact decode_eq_ok_iff.2 ⟨encodeReq i, rfl, decodeReq_encodeReq i hw⟩

/-- Settles O2: the bytes begin with a code, and the request of a code is well-formed and has that code. -/
theorem decodedBytesAreItsEncoding : Obligations.DecodedBytesAreItsEncoding := by
  intro bs rest i h
  obtain ⟨op, rfl, rfl⟩ := decode_eq_ok_iff.1 h
  exact ⟨decodeReq_wf op, by simp [encode, encodeReq_decodeReq]⟩

/-- Settles O3: each table word is read as the request of its code. -/
theorem requestCodesDecodeAsListed : Obligations.RequestCodesDecodeAsListed :=
  ⟨decodeTableWord_reqCode 0b000#3, decodeTableWord_reqCode 0b001#3, decodeTableWord_reqCode 0b010#3,
    decodeTableWord_reqCode 0b011#3, decodeTableWord_reqCode 0b100#3, decodeTableWord_reqCode 0b101#3,
    decodeTableWord_reqCode 0b110#3, decodeTableWord_reqCode 0b111#3⟩

end Sys2Proof
end

section
/-! The refusal of a configuration for its measurement codes (R57; log 19). -/

namespace Sys2Proof

/-- R57: the codes are well-formed exactly when the three measurement codes differ; no other code counts. -/
theorem CmdCodes.wf_iff {c : CmdCodes} :
    c.wf = true ↔ c.measHigh ≠ c.measMedium ∧ c.measHigh ≠ c.measLow ∧ c.measMedium ≠ c.measLow := by
  simp [CmdCodes.wf, and_assoc]

/-- R5, R57, R108: the three parts of a well-formed configuration. -/
theorem Params.wf_iff {p : Params} :
    p.wf = true ↔ p.cmdCode.wf = true ∧ p.layout.wf = true ∧ 1 ≤ p.ticksPerMs := by
  simp [Params.wf, Params.ticksOk, and_assoc]

namespace Machine

/-- R57, R108, R5: a step refuses exactly the ill-formed configurations. -/
theorem step_refused_iff {s : State} : step s = .refused .illFormedConfig ↔ ¬ s.cfg.wf = true :=
  ⟨fun h hw => step_ne_refused hw _ h, fun h => step_illFormed (Bool.eq_false_of_not_eq_true h)⟩

/-- Settles O6: a step refuses exactly the ill-formed configurations, and the codes enter well-formedness by R57 alone. -/
theorem equalMeasurementCodesRefused : Obligations.EqualMeasurementCodesRefused := by
  constructor
  · intro s hequal
    refine step_refused_iff.2 fun hw => ?_
    obtain ⟨hHM, hHL, hML⟩ := CmdCodes.wf_iff.1 (Params.wf_iff.1 hw).1
    obtain h | h | h := hequal
    · exact hHM h
    · exact hHL h
    · exact hML h
  · intro s hlayout hticks hHM hHL hML hrefused
    exact step_refused_iff.1 hrefused (Params.wf_iff.2 ⟨CmdCodes.wf_iff.2 ⟨hHM, hHL, hML⟩, hlayout, hticks⟩)

end Machine

end Sys2Proof
end

section
/-! The checksum of a triplet in its three forms: the bit form (R69), the table form (R71) and the residue (R73). -/

namespace Sys2Proof.Machine

/-- R71: the printed table holds what 8 bit steps give. -/
theorem crcTable_eq_crcBits : ∀ x : Byte, crcTable x = crcBits 8 x := by
  decide

/-- R69: the register after two bytes. -/
theorem crc8_eq_crcBits (b0 b1 : Byte) : crc8 b0 b1 = crcBits 8 (crcBits 8 (0xFF#8 ^^^ b0) ^^^ b1) := rfl

/-- R73: the third byte meets the checksum of the first two. -/
theorem crcOf_three_eq_crcBits (b0 b1 c : Byte) : crcOf [b0, b1, c] = crcBits 8 (crc8 b0 b1 ^^^ c) := rfl

/-- R72: a triplet is valid when nothing is left of its checksum after the computed one. -/
theorem tripletValid_iff_xor_eq_zero {b0 b1 c : Byte} : tripletValid b0 b1 c = true ↔ crc8 b0 b1 ^^^ c = 0#8 := by
  rw [tripletValid, beq_iff_eq, BitVec.xor_eq_zero_iff]

/-- Settles O35: each of the two table reads stands for the 8 bit steps of one byte. -/
theorem crcTableFormAgrees : Obligations.CrcTableFormAgrees := by
  intro b0 b1
  rw [crc8Table, crcTable_eq_crcBits, crcTable_eq_crcBits, crc8_eq_crcBits]

/-- Settles O36: 8 bit steps send only 0 to 0. -/
theorem tripletValidIffResidueZero : Obligations.TripletValidIffResidueZero := by
  intro b0 b1 c
  rw [crcOf_three_eq_crcBits, crcBits_eq_zero, tripletValid_iff_xor_eq_zero]

end Sys2Proof.Machine
end

section
/-! Error patterns as polynomials over two elements: the XOR of the powers x^i of their set bits. `xorSum f l` adds up
`f i` for the exponents i of `l`, and every function that respects XOR is known from its values at the powers. -/

namespace Sys2Proof.Machine

variable {v w : Nat} {l : List Nat}

/-- The XOR of the words `f i`, for the exponents `i` of a list. -/
def xorSum (f : Nat → BitVec w) (l : List Nat) : BitVec w := (l.map f).foldr (· ^^^ ·) 0#w

@[simp] theorem xorSum_nil (f : Nat → BitVec w) : xorSum f [] = 0#w := rfl

@[simp] theorem xorSum_cons (f : Nat → BitVec w) (i : Nat) (l : List Nat) :
    xorSum f (i :: l) = f i ^^^ xorSum f l := rfl

theorem xorSum_congr {f g : Nat → BitVec w} (h : ∀ i ∈ l, f i = g i) : xorSum f l = xorSum g l := by
  rw [xorSum, List.map_congr_left h, xorSum]

theorem xorSum_map (f : Nat → BitVec w) (g : Nat → Nat) (l : List Nat) :
    xorSum f (l.map g) = xorSum (fun i => f (g i)) l := by
  rw [xorSum, List.map_map]
  rfl

theorem xorSum_xor (f g : Nat → BitVec w) (l : List Nat) :
    xorSum (fun i => f i ^^^ g i) l = xorSum f l ^^^ xorSum g l := by
  induction l with
  | nil => rw [xorSum_nil, xorSum_nil, xorSum_nil, BitVec.xor_self]
  | cons i l ih =>
    rw [xorSum_cons, ih, xorSum_cons, xorSum_cons]
    ac_rfl

/-- One bit, added up: the lowest bit of the number of terms. -/
theorem xorSum_const_one (l : List Nat) : xorSum (fun _ => 1#1) l = BitVec.ofNat 1 l.length := by
  have hadd : ∀ b : BitVec 1, 1#1 ^^^ b = b + 1#1 := by decide
  induction l with
  | nil => rfl
  | cons i l ih => rw [xorSum_cons, ih, hadd, List.length_cons, BitVec.ofNat_add]

/-- A function that respects XOR acts on a sum term by term. -/
theorem map_xorSum {g : BitVec w → BitVec v} (hg : ∀ x y, g (x ^^^ y) = g x ^^^ g y) (f : Nat → BitVec w)
    (l : List Nat) : g (xorSum f l) = xorSum (fun i => g (f i)) l := by
  induction l with
  | nil => simpa using hg 0#w 0#w
  | cons i l ih => rw [xorSum_cons, hg, ih, xorSum_cons]

/-- A sum of different powers has exactly their bits set. -/
theorem getLsbD_xorSum_twoPow (hl : l.Nodup) {k : Nat} (hk : k < w) :
    (xorSum (BitVec.twoPow w) l).getLsbD k = decide (k ∈ l) := by
  induction l with
  | nil => simp
  | cons i l ih =>
    obtain ⟨hi, hl⟩ := List.nodup_cons.1 hl
    rw [xorSum_cons, BitVec.getLsbD_xor, ih hl, BitVec.getLsbD_twoPow]
    by_cases h : i = k
    · subst h
      simp [hk, hi]
    · simp [h, Ne.symm h]

/-- The positions of the set bits of a 24-bit pattern. -/
def setBits (e : BitVec 24) : List Nat := (List.range 24).filter (e.getLsbD ·)

theorem mem_setBits {e : BitVec 24} {i : Nat} : i ∈ setBits e ↔ i < 24 ∧ e.getLsbD i = true := by
  simp [setBits]

theorem nodup_setBits (e : BitVec 24) : (setBits e).Nodup := List.nodup_range.filter _

theorem weight24_eq_length_setBits (e : BitVec 24) : weight24 e = (setBits e).length :=
  List.countP_eq_length_filter

/-- A pattern is the sum of the powers at its set bits. -/
theorem xorSum_twoPow_setBits (e : BitVec 24) : xorSum (BitVec.twoPow 24) (setBits e) = e := by
  refine BitVec.eq_of_getLsbD_eq fun k hk => ?_
  rw [getLsbD_xorSum_twoPow (nodup_setBits e) hk, Bool.eq_iff_iff, decide_eq_true_iff, mem_setBits]
  exact and_iff_right hk

/-- Only the zero pattern has no bit set. -/
theorem setBits_ne_nil {e : BitVec 24} (he : e ≠ 0#24) : setBits e ≠ [] := by
  intro h
  rw [← xorSum_twoPow_setBits e, h] at he
  exact he rfl

end Sys2Proof.Machine
end

section
/-! Error detection (R74). A pattern passes exactly when its remainder modulo the polynomial of R5 is 0, and this remainder
is the XOR of the remainders x^i mod P (`crcBits i 1`) of its set bits. P is divisible by x + 1, so the weight of a
multiple is even; the powers below 24 differ modulo P, so it is not 2; and x is invertible modulo P, so a multiple spans
more bits than a byte has. -/

namespace Sys2Proof.Machine

variable {t e : BitVec 24} {l : List Nat}

/-- The checksum of the first two bytes of a pattern from a register of 0, over its third byte. -/
def syndrome (e : BitVec 24) : Byte :=
  crcBits 8 (crcBits 8 (e.extractLsb' 16 8) ^^^ e.extractLsb' 8 8) ^^^ e.extractLsb' 0 8

theorem syndrome_xor (x y : BitVec 24) : syndrome (x ^^^ y) = syndrome x ^^^ syndrome y := by
  simp only [syndrome, BitVec.extractLsb'_xor, crcBits_xor]
  ac_rfl

/-- R69, R72: the initial register value counts as an error pattern on the first byte. -/
theorem tripletValid24_iff_syndrome : tripletValid24 t = true ↔ syndrome (0xFF0000#24 ^^^ t) = 0#8 := by
  have hinit : syndrome 0xFF0000#24 = crcBits 8 (crcBits 8 0xFF#8) := by decide +kernel
  rw [tripletValid24, tripletValid_iff_xor_eq_zero, crc8_eq_crcBits, syndrome_xor, hinit, syndrome]
  simp only [crcBits_xor, BitVec.xor_assoc]

/-- R74: whether a pattern passes is a matter of the pattern alone. -/
theorem tripletValid24_xor_iff (ht : tripletValid24 t = true) : tripletValid24 (t ^^^ e) = true ↔ syndrome e = 0#8 := by
  rw [tripletValid24_iff_syndrome, ← BitVec.xor_assoc, syndrome_xor, tripletValid24_iff_syndrome.1 ht, BitVec.zero_xor]

theorem syndrome_twoPow : ∀ i < 24, syndrome (BitVec.twoPow 24 i) = crcBits i 1#8 := by
  decide +kernel

/-- The syndrome is the remainder of the pattern modulo the polynomial. -/
theorem syndrome_eq_xorSum (e : BitVec 24) : syndrome e = xorSum (crcBits · 1#8) (setBits e) := by
  conv_lhs => rw [← xorSum_twoPow_setBits e, map_xorSum syndrome_xor]
  exact xorSum_congr fun i hi => syndrome_twoPow i (mem_setBits.1 hi).1

/-! Even weight: the polynomial is divisible by x + 1. -/

/-- The parity of a byte: the XOR of its bits. -/
def parity (c : Byte) : BitVec 1 := xorSum (c.extractLsb' · 1) (List.range 8)

theorem parity_xor (x y : Byte) : parity (x ^^^ y) = parity x ^^^ parity y := by
  simp only [parity, BitVec.extractLsb'_xor, xorSum_xor]

/-- A bit step keeps the parity, since the polynomial has an even number of terms. -/
theorem parity_crcBit : ∀ c : Byte, parity (crcBit c) = parity c := by
  decide +kernel

theorem parity_crcBits (n : Nat) (c : Byte) : parity (crcBits n c) = parity c := by
  induction n generalizing c with
  | zero => rfl
  | succ n ih => rw [crcBits, ih, parity_crcBit]

/-- Each power is odd modulo the polynomial, so the parity of a sum of powers is that of their number. -/
theorem parity_xorSum_crcBits (l : List Nat) : parity (xorSum (crcBits · 1#8) l) = BitVec.ofNat 1 l.length := by
  have hone : parity 1#8 = 1#1 := by decide
  simp only [map_xorSum parity_xor, parity_crcBits, hone, xorSum_const_one]

theorem length_even_of_xorSum_eq_zero (h : xorSum (crcBits · 1#8) l = 0#8) : l.length % 2 = 0 := by
  have hparity : 0#1 = BitVec.ofNat 1 l.length := by
    rw [← parity_xorSum_crcBits, h]
    rfl
  simpa using congrArg BitVec.toNat hparity.symm

/-! Weight above 2: the powers of x below 24 differ modulo the polynomial. -/

theorem crcBits_one_inj : ∀ i < 24, ∀ j < 24, crcBits i 1#8 = crcBits j 1#8 → i = j := by
  decide +kernel

theorem length_ne_two_of_xorSum_eq_zero (hlt : ∀ i ∈ l, i < 24) (hl : l.Nodup)
    (h : xorSum (crcBits · 1#8) l = 0#8) : l.length ≠ 2 := by
  intro hlen
  obtain ⟨i, j, rfl⟩ := List.length_eq_two.1 hlen
  have hij : crcBits i 1#8 = crcBits j 1#8 := by simpa [BitVec.xor_eq_zero_iff] using h
  have heq : i = j := crcBits_one_inj i (hlt i (by simp)) j (hlt j (by simp)) hij
  simp [heq] at hl

/-! Burst length: 8 consecutive bits are a byte times a power of x, and x is invertible modulo the polynomial. -/

theorem crcBits_add (m n : Nat) (c : Byte) : crcBits (m + n) c = crcBits n (crcBits m c) := by
  induction m generalizing c with
  | zero => rw [Nat.zero_add, crcBits]
  | succ m ih => rw [Nat.succ_add, crcBits, ih, crcBits]

/-- Below the degree of the polynomial a power is its own remainder. -/
theorem crcBits_one_eq_twoPow : ∀ i < 8, crcBits i 1#8 = BitVec.twoPow 8 i := by
  decide +kernel

/-- Powers from x^k to x^(k+7) add up to x^k times a byte. -/
theorem xorSum_eq_crcBits_of_burst {k : Nat} (hk : ∀ i ∈ l, k ≤ i ∧ i < k + 8) :
    xorSum (crcBits · 1#8) l = crcBits k (xorSum (BitVec.twoPow 8) (l.map (· - k))) := by
  rw [xorSum_map, map_xorSum (crcBits_xor k)]
  refine xorSum_congr fun i hi => ?_
  obtain ⟨hki, hlt⟩ := hk i hi
  rw [← crcBits_one_eq_twoPow (i - k) (by omega), ← crcBits_add, Nat.sub_add_cancel hki]

theorem xorSum_ne_zero_of_burst {k : Nat} (hne : l ≠ []) (hl : l.Nodup) (hk : ∀ i ∈ l, k ≤ i ∧ i < k + 8) :
    xorSum (crcBits · 1#8) l ≠ 0#8 := by
  obtain ⟨i, hi⟩ := List.exists_mem_of_ne_nil l hne
  have hnodup : (l.map (· - k)).Nodup := hl.map_on fun i hi j hj hij => by
    have := hk i hi
    have := hk j hj
    omega
  have hbit : (xorSum (BitVec.twoPow 8) (l.map (· - k))).getLsbD (i - k) = true := by
    have := hk i hi
    rw [getLsbD_xorSum_twoPow hnodup (by omega), decide_eq_true (List.mem_map_of_mem hi)]
  rw [xorSum_eq_crcBits_of_burst hk, ne_eq, crcBits_eq_zero]
  intro hzero
  simp [hzero] at hbit

/-- The bits of a pattern that lies within 8 consecutive bits. -/
theorem setBits_of_burst {k : Nat} (h : e &&& ~~~ (0xFF#24 <<< k) = 0#24) : ∀ i ∈ setBits e, k ≤ i ∧ i < k + 8 := by
  intro i hi
  obtain ⟨hlt, hbit⟩ := mem_setBits.1 hi
  obtain ⟨hki, hmask⟩ : k ≤ i ∧ (0xFF#24).getLsbD (i - k) = true := by
    simpa [hlt, hbit, -BitVec.getLsbD_eq_getElem] using congrArg (BitVec.getLsbD · i) h
  have hlow : ∀ j < 24, (0xFF#24).getLsbD j = true → j < 8 := by decide
  have := hlow (i - k) (by omega) hmask
  omega

/-! The three bounds of R74 on a pattern that passes. -/

section Passes
variable (hpass : syndrome e = 0#8) (he : e ≠ 0#24)
include hpass

theorem weight24_even : weight24 e % 2 = 0 := by
  rw [weight24_eq_length_setBits]
  exact length_even_of_xorSum_eq_zero (syndrome_eq_xorSum e ▸ hpass)

include he

theorem four_le_weight24 : 4 ≤ weight24 e := by
  have heven := weight24_even hpass
  rw [weight24_eq_length_setBits] at heven ⊢
  have hpos : 0 < (setBits e).length := List.length_pos_of_ne_nil (setBits_ne_nil he)
  have htwo : (setBits e).length ≠ 2 := length_ne_two_of_xorSum_eq_zero (fun i hi => (mem_setBits.1 hi).1)
    (nodup_setBits e) (syndrome_eq_xorSum e ▸ hpass)
  omega

theorem not_confined_to_eight_bits (k : Nat) : e &&& ~~~ (0xFF#24 <<< k) ≠ 0#24 := fun h =>
  xorSum_ne_zero_of_burst (setBits_ne_nil he) (nodup_setBits e) (setBits_of_burst h) (syndrome_eq_xorSum e ▸ hpass)

end Passes

/-- Settles O37: a pattern passes when its remainder is 0, and the bounds are those of such a pattern. -/
theorem validatorRejectsSmallErrors : Obligations.ValidatorRejectsSmallErrors := by
  refine ⟨fun t u e ht hu => ?_, fun t e ht he hvalid => ?_, fun t ht => ?_⟩
  · rw [tripletValid24_xor_iff ht, tripletValid24_xor_iff hu]
  · have hpass : syndrome e = 0#8 := (tripletValid24_xor_iff ht).1 hvalid
    exact ⟨weight24_even hpass, four_le_weight24 hpass he, not_confined_to_eight_bits hpass he⟩
  · exact (tripletValid24_xor_iff ht).2 (by decide +kernel)

end Sys2Proof.Machine
end

section
/-! The arbiter's verdict (R76, R77), and the result writes of a measurement and of a serial-number read (R78, R79). -/

namespace Sys2Proof.Machine

variable {s : State} {i : Instr}

/-- R72. -/
theorem tripletValid_iff {b0 b1 crc : Byte} : tripletValid b0 b1 crc = true ↔ crc8 b0 b1 = crc := by
  rw [tripletValid, beq_iff_eq]

/-- R76: a response of two triplets validates when it was delivered whole and both checksums are right. -/
theorem verdict_two_iff : verdict 2 s = true ↔
    6 ≤ s.rlen.toNat ∧ crc8 (s.rbuf.get 0) (s.rbuf.get 1) = s.rbuf.get 2 ∧
      crc8 (s.rbuf.get 3) (s.rbuf.get 4) = s.rbuf.get 5 := by
  rw [verdict_two, Bool.and_eq_true, Bool.and_eq_true, decide_eq_true_iff, tripletValid_iff, tripletValid_iff]

/-- R77: a response shorter than its triplets fails, whatever the buffer holds. -/
theorem verdict_false_of_short {n : Nat} (h : s.rlen.toNat < 3 * n) : verdict n s = false :=
  Bool.eq_false_iff.2 fun hv => Nat.not_lt.2 (verdict_full hv) h

/-- R60: the serial number byte by byte, the first byte delivered on top. -/
theorem RBuf.serial_eq_bytes (b : RBuf) : b.serial = b.get 0 ++ b.get 1 ++ b.get 3 ++ b.get 4 := by
  rw [RBuf.serial_eq]
  exact BitVec.append_assoc'.trans (BitVec.cast_eq _ _)

/-- R90, R95. -/
theorem exec_arbitrate (i : Instr) (hf : s.fsm = .arbitrate) :
    exec i s = arbitrateEdge (decide (i = .softReset)) (effectiveCommand i s.phase) s := by
  rw [exec_eq_requestEdge, requestEdge, hf]

/-- R82: with `PHASE` = 0 a request sends its own command. -/
theorem effectiveCommand_of_phase_false (i : Instr) (hp : s.phase = false) :
    effectiveCommand i s.phase = requestCommand i := by
  rw [effectiveCommand, hp, if_neg Bool.false_ne_true]

/-- R90, R99 to R101: the three measurements are judged alike. -/
theorem exec_arbitrate_measurement (hi : Safety.isMeasurement i) (hf : s.fsm = .arbitrate) (hp : s.phase = false) :
    exec i s = .next (arbitrateMeasurement s) := by
  rw [exec_arbitrate i hf, effectiveCommand_of_phase_false i hp]
  obtain rfl | rfl | rfl := hi <;> rfl

/-- R90, R102. -/
theorem exec_arbitrate_readSerial (hf : s.fsm = .arbitrate) (hp : s.phase = false) :
    exec .readSerial s = .next (arbitrateSerial s) := by
  rw [exec_arbitrate .readSerial hf, effectiveCommand_of_phase_false .readSerial hp]
  rfl

/-- Settles O19, by the two cases of the verdict. -/
theorem measurementResultWritten : Obligations.MeasurementResultWritten := by
  intro i s hi hf hp
  rw [exec_arbitrate_measurement hi hf hp, ← verdict_two_iff]
  obtain ⟨hv, h⟩ | ⟨hv, h⟩ := arbitrateMeasurement_cases s
  · refine ⟨fun _ => ?_, fun hn => absurd hv hn⟩
    rw [h, RBuf.word_zero, RBuf.word_one]
    rfl
  · refine ⟨fun hok => absurd hok (Bool.eq_false_iff.1 hv), fun _ =>
      ⟨s.drawMeas.resTRaw, s.drawMeas.resRhRaw, s.drawMeas.draws, ?_⟩⟩
    rw [h]
    rfl

/-- Settles O20, by the two cases of the verdict. -/
theorem serialResultWritten : Obligations.SerialResultWritten := by
  intro s hf hp
  rw [exec_arbitrate_readSerial hf hp]
  obtain ⟨hv, h⟩ | ⟨hv, h⟩ := arbitrateSerial_cases s
  · rw [h, if_pos (verdict_two_iff.1 hv), RBuf.serial_eq_bytes]
    rfl
  · rw [h, if_neg (mt verdict_two_iff.2 (Bool.eq_false_iff.1 hv))]
    rfl

end Sys2Proof.Machine
end

section
/-! A short read fails validation (R77), and a failed status attempt is retried before the 10th (R91). -/

namespace Sys2Proof.Machine

variable {s : State} {i : Instr} {c : Cmd}

/-- R89: a read completion. -/
theorem exec_respRead_done (hf : s.fsm = .respRead) (hd : s.pins.rdDone = true)
    (hc : effectiveCommand i s.phase = some c) : exec i s = .next (s.storeResponse (respLen c)) := by
  simp only [exec_eq_requestEdge, requestEdge, hf, hc, respReadEdge, hd, if_true]

/-- R77, R89: after a short read the verdict on the response is 0. -/
theorem verdict_storeResponse_short (h : s.pins.rdLen.toNat < respLen c) :
    verdict (tripletCount c) (s.storeResponse (respLen c)) = false := by
  refine verdict_false_of_short ?_
  calc (s.storeResponse (respLen c)).rlen.toNat
    _ = s.pins.deliveredLen (respLen c) := by rw [storeResponse_rlen, deliveredLen_toNat]
    _ ≤ s.pins.rdLen.toNat := Nat.min_le_left _ _
    _ < 3 * tripletCount c := h

/-- R91: a status attempt that fails before the 10th is retried. -/
theorem exec_arbitrate_retry (hf : s.fsm = .arbitrate) (hc : effectiveCommand i s.phase = some .readStatus)
    (hv : verdict 1 s = false) (ha : s.attempt ≠ nAttempts) : exec i s = .next s.retry := by
  rw [exec_arbitrate i hf, hc, arbitrateEdge, arbitrateStatus, hv, Bool.false_or, if_neg (by rwa [beq_iff_eq])]

/-- Settles O23: the read completes, its verdict is 0, and the arbitration of a status attempt retries it. -/
theorem shortReadFailsValidation : Obligations.ShortReadFailsValidation := by
  intro i c s hf hd hc hshort
  have hv := verdict_storeResponse_short hshort
  refine ⟨_, exec_respRead_done hf hd hc, hv, ?_⟩
  rintro rfl ha
  exact exec_arbitrate_retry rfl hc hv ha

end Sys2Proof.Machine
end

section
/-! What the edge of a request does in each state of the machine, whichever request runs (R86 to R93, R95). -/

namespace Sys2Proof.Machine

variable {s t : State} {i : Instr} {c : Cmd}

/-- R86. -/
theorem exec_idle (i : Instr) (hf : s.fsm = .idle) : exec i s = .next (acceptRequest i s) := by
  rw [exec_eq_requestEdge, requestEdge, hf]

/-- R87. -/
theorem exec_cmdWrite (i : Instr) (hf : s.fsm = .cmdWrite) :
    exec i s = cmdWriteEdge (effectiveCommand i s.phase) s := by
  rw [exec_eq_requestEdge, requestEdge, hf]

/-- R88. -/
theorem exec_settle (i : Instr) (hf : s.fsm = .settle) :
    exec i s = settleEdge (effectiveCommand i s.phase) s := by
  rw [exec_eq_requestEdge, requestEdge, hf]

/-- R89. -/
theorem exec_respRead (i : Instr) (hf : s.fsm = .respRead) :
    exec i s = respReadEdge (effectiveCommand i s.phase) s := by
  rw [exec_eq_requestEdge, requestEdge, hf]

/-- R93. -/
theorem exec_complete (i : Instr) (hf : s.fsm = .complete) : exec i s = completeEdge s := by
  rw [exec_eq_requestEdge, requestEdge, hf]

/-- R94: `CMD_WRITE` waits, whatever the command. -/
theorem cmdWriteEdge_wait (ec : Option Cmd) (hd : s.pins.wrDone = false) : cmdWriteEdge ec s = .next s := by
  simp [cmdWriteEdge, hd]

/-- R87. -/
theorem cmdWriteEdge_done (hd : s.pins.wrDone = true) :
    cmdWriteEdge (some c) s = .next (s.loadTimer (settleTicks s.cfg c)) := by
  rw [cmdWriteEdge, if_pos hd]

/-- R88: the timer counts down, whatever the command. -/
theorem settleEdge_tick (ec : Option Cmd) (ht : s.timer ≠ 0) : settleEdge ec s = .next s.tick := by
  simp [settleEdge, ht]

/-- R88: the settle of the reset command is over. -/
theorem settleEdge_softReset (ht : s.timer = 0) :
    settleEdge (some .softReset) s = .next (s.beginAttempts true 1#4) := by
  rw [settleEdge, if_neg (not_not_intro ht)]
  rfl

/-- R88: the settle of a command that has a response is over. -/
theorem settleEdge_read (ht : s.timer = 0) (hne : c ≠ .softReset) :
    settleEdge (some c) s = .next s.beginRead := by
  rw [settleEdge, if_neg (not_not_intro ht)]
  exact if_neg (mt (respLen_eq_zero c).1 hne)

/-- R94: `RESP_READ` waits, whatever the command. -/
theorem respReadEdge_wait (ec : Option Cmd) (hd : s.pins.rdDone = false) : respReadEdge ec s = .next s := by
  simp [respReadEdge, hd]

/-- R89. -/
theorem respReadEdge_done (hd : s.pins.rdDone = true) :
    respReadEdge (some c) s = .next (s.storeResponse (respLen c)) := by
  rw [respReadEdge, if_pos hd]

/-- R93: `COMPLETE` waits. -/
theorem completeEdge_wait (ha : s.pins.rspAck = false) : completeEdge s = .next s := by
  rw [completeEdge, ha, if_neg Bool.false_ne_true]

/-- R93. -/
theorem completeEdge_ack (ha : s.pins.rspAck = true) : completeEdge s = .next s.release := by
  rw [completeEdge, if_pos ha]

end Sys2Proof.Machine
end

section
/-! Waiting without bound: `IDLE` (R85), `CMD_WRITE` and `RESP_READ` (R94), `COMPLETE` (R93). -/

namespace Sys2Proof.Machine

open Sys2Proof.Safety

variable {s : State}

/-- A state that an edge with pins of some kind leaves as it was is left so by any number of such edges. -/
theorem runSteps_of_stays {stays : Pins → Prop}
    (hstep : ∀ rest p, stays p → step (s.atEdge rest p) = .next { s with script := rest }) (k : Nat)
    (script : List Pins) (hk : k ≤ script.length) (hs : ∀ p ∈ script.take k, stays p) :
    runSteps k { s with script := script } = .next { s with script := script.drop k } := by
  induction k generalizing script with
  | zero => rfl
  | succ k ih =>
    cases script with
    | nil => simp at hk
    | cons p rest =>
      rw [List.take_succ_cons, List.forall_mem_cons] at hs
      obtain ⟨hp, hrest⟩ := hs
      rw [runSteps_succ_of_step k (hstep rest p hp)]
      exact ih rest (Nat.le_of_succ_le_succ hk) hrest

/-- Settles O11. -/
theorem idleWaitsWithoutBound : Obligations.IdleWaitsWithoutBound := by
  intro k s hw hk hf hs
  exact runSteps_of_stays (fun rest p ⟨hr, hv⟩ => step_idle_wait (s := s.atEdge rest p) hw hr hf hv) k s.script hk hs

/-- R94: an edge of `CMD_WRITE` at which the write does not end. -/
theorem step_cmdWrite_wait (hw : s.cfg.wf = true) (hr : s.pins.rst = false) (hf : s.fsm = .cmdWrite)
    (hd : s.pins.wrDone = false) : step s = .next s.nextEdge := by
  rw [step_cmdWrite hw hr hf, cmdWriteEdge_wait _ hd, onNext]

/-- R94: an edge of `RESP_READ` at which the read does not end. -/
theorem step_respRead_wait (hw : s.cfg.wf = true) (hr : s.pins.rst = false) (hf : s.fsm = .respRead)
    (hd : s.pins.rdDone = false) : step s = .next s.nextEdge := by
  rw [step_respRead hw hr hf, respReadEdge_wait _ hd, onNext]

/-- R93: an edge of `COMPLETE` without an acknowledgement. -/
theorem step_complete_wait (hw : s.cfg.wf = true) (hr : s.pins.rst = false) (hf : s.fsm = .complete)
    (ha : s.pins.rspAck = false) : step s = .next s.nextEdge := by
  rw [step_complete hw hr hf, completeEdge_wait ha, onNext]

/-- R93: the acknowledgement. -/
theorem step_complete_ack (hw : s.cfg.wf = true) (hr : s.pins.rst = false) (hf : s.fsm = .complete)
    (ha : s.pins.rspAck = true) : step s = .next s.release.nextEdge := by
  rw [step_complete hw hr hf, completeEdge_ack ha, onNext]

/-- Settles O12, in either waiting state. -/
theorem unansweredTransportHangs : Obligations.UnansweredTransportHangs := by
  intro k s hw hk h
  obtain ⟨hf, hs⟩ | ⟨hf, hs⟩ := h
  · exact runSteps_of_stays (fun rest p ⟨hr, hd⟩ => step_cmdWrite_wait (s := s.atEdge rest p) hw hr hf hd) k s.script
      hk hs
  · exact runSteps_of_stays (fun rest p ⟨hr, hd⟩ => step_respRead_wait (s := s.atEdge rest p) hw hr hf hd) k s.script
      hk hs

/-- Settles O13: `RES_VALID` by the invariant, and the edge with and without `rsp_ack`. -/
theorem completeWaitsForAcknowledge : Obligations.CompleteWaitsForAcknowledge := by
  refine ⟨fun s hI hf => ⟨hI.valid_iff_complete.2 hf, by simp [State.outputs, hf]⟩, fun k s hw hk hf hs => ?_,
    fun s hw hf hr ha => step_complete_ack hw hr hf ha, fun i s hf => ?_⟩
  · exact runSteps_of_stays (fun rest p ⟨hr, ha⟩ => step_complete_wait (s := s.atEdge rest p) hw hr hf ha) k s.script
      hk hs
  · rw [exec_complete i hf]
    cases ha : s.pins.rspAck with
    | false => exact completeEdge_wait ha
    | true => exact completeEdge_ack ha

end Sys2Proof.Machine
end

section
/-! The acceptance of a request in `IDLE` (R86). -/

namespace Sys2Proof.Machine

variable {s : State} {op : ReqCode} {c : Cmd}

/-- R53, R86: READ_STATUS has the code 4, and SOFT_RESET the code 5. -/
theorem code_of_requestCommand (hc : requestCommand (decodeReq op) = some c) :
    (c = .readStatus ↔ op = 4#3) ∧ (c = .softReset ↔ op = 5#3) := by
  revert op
  cases c <;> decide

/-- R86, R105: the acceptance of an illegal request. -/
theorem acceptRequest_of_none {i : Instr} (hc : requestCommand i = none) :
    acceptRequest i s = (s.latch (encodeReq i) s.pins.devAddr).noAttempt.finish .illegalOp := by
  rw [acceptRequest, hc]

/-- R86: the acceptance of a legal request. -/
theorem acceptRequest_of_some {i : Instr} (hc : requestCommand i = some c) :
    acceptRequest i s = (s.latch (encodeReq i) s.pins.devAddr).beginAttempts (c == .readStatus)
      (if c = .softReset then 0#4 else 1#4) := by
  rw [acceptRequest, hc]

/-- Settles O15: the acceptance by its two cases, and the pins that no other transition reads by O14. -/
theorem requestAcceptedInIdle : Obligations.RequestAcceptedInIdle := by
  refine ⟨fun s hw hr hf hv => ⟨by simp [State.outputs, hf], ?_⟩, fun s p rest op addr h => ?_⟩
  · rw [step_idle_accept hw hr hf hv]
    cases hc : requestCommand (decodeReq s.pins.reqOp) with
    | none =>
      rw [if_pos ((requestCommand_decodeReq_eq_none _).1 hc), acceptRequest_of_none hc, encodeReq_decodeReq]
      rfl
    | some c =>
      have hlegal : ¬ (s.pins.reqOp = 6#3 ∨ s.pins.reqOp = 7#3) := fun h =>
        Option.some_ne_none c (hc.symm.trans ((requestCommand_decodeReq_eq_none _).2 h))
      obtain ⟨hstatus, hreset⟩ := code_of_requestCommand hc
      simp only [if_neg hlegal, acceptRequest_of_some hc, encodeReq_decodeReq, beq_eq_decide, hstatus, hreset]
      rfl
  · refine eachStateReadsOnlyItsOwnPins s _ p rest rfl (fun hf => ⟨rfl, fun hv => ?_⟩) (fun _ => rfl)
      (fun _ => ⟨rfl, fun _ => ⟨rfl, rfl⟩⟩) (fun _ => rfl)
    obtain hne | hnone := h
    · exact absurd hf hne
    · exact absurd hv (by simp [hnone])

end Sys2Proof.Machine
end

section
/-! The command write and the settle delay (R84, R87, R88). -/

namespace Sys2Proof.Machine

variable {s : State} {c : Cmd}

/-- R84. -/
theorem settleTicks_eq_ite (p : Params) (c : Cmd) :
    settleTicks p c = (if c = .measHigh ∨ c = .measMedium ∨ c = .measLow then 15 else 1) * p.ticksPerMs := by
  rw [settleTicks, settleMs_eq_ite]

/-- R82: the effective command of the request in progress. -/
theorem ec_of_request {i : Instr} (hi : decodeReq s.curOp = i) (hc : effectiveCommand i s.phase = some c) :
    s.ec = some c := by
  rw [ec_eq, hi, hc]

/-- Settles O16, with and without `wr_done`. -/
theorem commandWriteLoadsSettleTimer : Obligations.CommandWriteLoadsSettleTimer := by
  intro i c s hf hi hc
  have hc : effectiveCommand i s.phase = some c := hc
  refine ⟨⟨by simp [State.outputs, hf], rfl, (outputs_of_ec (ec_of_request hi hc)).1⟩, ?_⟩
  rw [exec_cmdWrite i hf, hc, ← settleTicks_eq_ite]
  cases hd : s.pins.wrDone with
  | false => exact cmdWriteEdge_wait _ hd
  | true => exact cmdWriteEdge_done hd

/-- The state after `n` edges of counting down. -/
abbrev State.afterTicks (s : State) (n : Nat) : State :=
  { s with timer := s.timer - n, script := s.script.drop n }

theorem afterTicks_tick_nextEdge (s : State) (n : Nat) : s.tick.nextEdge.afterTicks n = s.afterTicks (n + 1) := by
  simp [State.afterTicks, Nat.sub_sub, Nat.add_comm]

/-- R88: `SETTLE` counts down for as long as the timer runs. -/
theorem runSteps_settle (n : Nat) (s : State) (hw : s.cfg.wf = true) (hf : s.fsm = .settle) (hn : n ≤ s.timer)
    (hlen : n ≤ s.script.length) (hs : ∀ p ∈ s.script.take n, p.rst = false) :
    runSteps n s = .next (s.afterTicks n) := by
  induction n generalizing s with
  | zero => rfl
  | succ n ih =>
    cases hscript : s.script with
    | nil => simp [hscript] at hlen
    | cons p rest =>
      rw [hscript, List.take_succ_cons, List.forall_mem_cons] at hs
      obtain ⟨hp, hrest⟩ := hs
      have hstep : step s = .next s.tick.nextEdge := by
        rw [step_settle hw (by rw [pins_of_script hscript, hp]) hf, settleEdge_tick _ (by omega), onNext]
      rw [runSteps_succ_of_step n hstep, ← afterTicks_tick_nextEdge]
      refine ih s.tick.nextEdge hw hf (Nat.le_sub_one_of_lt hn) ?_ ?_
      · simpa using Nat.le_sub_one_of_lt hlen
      · simpa [hscript] using hrest

/-- R88: the edge that ends the settle delay. -/
theorem step_settle_end (hw : s.cfg.wf = true) (hr : s.pins.rst = false) (hf : s.fsm = .settle) (ht : s.timer = 0)
    (hc : s.ec = some c) : ∃ t, step s = .next t ∧ t.fsm = if c = .softReset then .cmdWrite else .respRead := by
  rw [step_settle hw hr hf, hc]
  by_cases hreset : c = .softReset
  · rw [if_pos hreset, hreset, settleEdge_softReset ht]
    exact ⟨_, rfl, rfl⟩
  · rw [if_neg hreset, settleEdge_read ht hreset]
    exact ⟨_, rfl, rfl⟩

/-- Settles O17: the edge by its cases, and the run by `runSteps_settle` and one edge more. -/
theorem settleCountsDownThenReads : Obligations.SettleCountsDownThenReads := by
  constructor
  · intro i c s hf hc
    have hc : effectiveCommand i s.phase = some c := hc
    rw [exec_settle i hf, hc]
    by_cases ht : s.timer = 0
    · rw [if_neg (not_not_intro ht)]
      by_cases hreset : c = .softReset
      · rw [if_pos hreset, hreset]
        exact settleEdge_softReset ht
      · rw [if_neg hreset]
        exact settleEdge_read ht hreset
    · rw [if_pos ht]
      exact settleEdge_tick _ ht
  · intro s c hw hf hc ht hlen hs
    have hrun : ∀ k, k ≤ settleTicks s.cfg c → runSteps k s = .next (s.afterTicks k) := fun k hk =>
      runSteps_settle k s hw hf (by omega) (by omega) fun p hp => hs p (List.take_subset_take_left _ (by omega) hp)
    refine ⟨fun k hk => ⟨_, hrun k hk, hf⟩, ?_⟩
    have hlast : (s.afterTicks (settleTicks s.cfg c)).pins.rst = false := by
      rw [pins_of_script (List.drop_eq_getElem_cons hlen)]
      exact hs _ (List.mem_take_iff_getElem.2 ⟨settleTicks s.cfg c, by omega, rfl⟩)
    obtain ⟨t, hstep, hfsm⟩ := step_settle_end (s := s.afterTicks (settleTicks s.cfg c)) hw hlast hf (by simp [ht]) hc
    exact ⟨t, by rw [runSteps_add _ 1 (hrun _ le_rfl), runSteps_succ_of_step 0 hstep, runSteps], hfsm⟩

end Sys2Proof.Machine
end

section
/-! The response read (R89), and the end of a status attempt (R80, R91, R104). -/

namespace Sys2Proof.Machine

variable {s : State}

/-- Settles O18: a delivered position of the buffer holds the byte received. -/
theorem responseReadFillsBuffer : Obligations.ResponseReadFillsBuffer := by
  intro i c s hf hi hc
  have hc : effectiveCommand i s.phase = some c := hc
  refine ⟨⟨by simp [State.outputs, hf], rfl, (outputs_of_ec (ec_of_request hi hc)).2⟩, fun hd => ?_, fun hd => ?_⟩
  · rw [exec_respRead i hf, respReadEdge_wait _ hd]
  · refine ⟨s.responseBuf (respLen c), s.draws + 6, ?_, fun k hk => ?_⟩
    · rw [exec_respRead_done hf hd hc]
      rfl
    · exact s.responseBuf_delivered (respLen c) k hk (respLen_le c)

/-- R76: a response of one triplet validates when it was delivered whole and its checksum is right. -/
theorem verdict_one_iff : verdict 1 s = true ↔
    3 ≤ s.rlen.toNat ∧ crc8 (s.rbuf.get 0) (s.rbuf.get 1) = s.rbuf.get 2 := by
  rw [verdict_one, Bool.and_eq_true, decide_eq_true_iff, tripletValid_iff]

/-- R109, R111: `commandStatus` is clear when its bits, shifted and masked, are 0. -/
theorem not_cmdStatus_eq_decide (l : StatusLayout) (S : Word) :
    (!cmdStatus l S) = decide (readField l.commandStatus S = 0#16) := by
  rw [cmdStatus, flag, bne, Bool.not_not, beq_eq_decide]

/-- R90: with `PHASE` = 1 the arbiter judges a status attempt. -/
theorem exec_arbitrate_status (i : Instr) (hf : s.fsm = .arbitrate) (hp : s.phase = true) :
    exec i s = .next (arbitrateStatus (decide (i = .softReset)) s) := by
  rw [exec_arbitrate i hf, hp]
  rfl

/-- R80, R104: the two writes that end a status read. -/
theorem resetResult_writeStatus (b : Bool) (s : State) (S : Word) :
    resetResult b (s.writeStatus S) =
      { s with resStatus := S, resResetOk := if b then !cmdStatus s.cfg.layout (s.rbuf.word 0) else s.resResetOk } := by
  cases b <;> rfl

/-- Settles O21, by the three cases of a status attempt. -/
theorem statusAttemptEndsOrRetries : Obligations.StatusAttemptEndsOrRetries := by
  intro i s _ hf hp
  rw [exec_arbitrate_status i hf hp]
  obtain ⟨hv, h⟩ | ⟨hv, ha, h⟩ | ⟨hv, ha, h⟩ := arbitrateStatus_cases (decide (i = .softReset)) s
  · have hok := verdict_one_iff.1 hv
    rw [h, if_pos (.inl hok), if_pos hok, resetResult_writeStatus, not_cmdStatus_eq_decide, RBuf.word_zero]
    simp only [decide_eq_true_iff]
    rfl
  · have hbad := mt verdict_one_iff.2 (Bool.eq_false_iff.1 hv)
    rw [h, if_pos (.inr ha), if_neg hbad, resetResult_writeStatus, not_cmdStatus_eq_decide, RBuf.word_zero]
    simp only [decide_eq_true_iff]
    rfl
  · have hbad := mt verdict_one_iff.2 (Bool.eq_false_iff.1 hv)
    have hmore : s.attempt ≠ 10#4 := ha
    rw [h, if_neg (not_or_intro hbad hmore)]
    rfl

end Sys2Proof.Machine
end

section
/-! What an edge of a request leaves unchanged (R95): what the edge can make of a state, state by state. -/

namespace Sys2Proof.Machine

variable {s t : State} {ec : Option Cmd}

/-- R87. -/
theorem cmdWriteEdge_cases (h : cmdWriteEdge ec s = .next t) : t = s ∨ ∃ ticks, t = s.loadTimer ticks := by
  cases hd : s.pins.wrDone with
  | false => exact .inl (by simpa [cmdWriteEdge_wait ec hd] using h.symm)
  | true =>
    cases ec with
    | none => simp [cmdWriteEdge, hd] at h
    | some c => exact .inr ⟨_, by simpa [cmdWriteEdge_done hd] using h.symm⟩

/-- R88. -/
theorem settleEdge_cases (h : settleEdge ec s = .next t) :
    t = s.tick ∨ t = s.beginAttempts true 1#4 ∨ t = s.beginRead := by
  by_cases ht : s.timer = 0
  · cases ec with
    | none => simp [settleEdge, ht] at h
    | some c =>
      by_cases hc : c = .softReset
      · subst hc
        exact .inr (.inl (by simpa [settleEdge_softReset ht] using h.symm))
      · exact .inr (.inr (by simpa [settleEdge_read ht hc] using h.symm))
  · exact .inl (by simpa [settleEdge_tick ec ht] using h.symm)

/-- R89. -/
theorem respReadEdge_cases (h : respReadEdge ec s = .next t) : t = s ∨ ∃ count, t = s.storeResponse count := by
  cases hd : s.pins.rdDone with
  | false => exact .inl (by simpa [respReadEdge_wait ec hd] using h.symm)
  | true =>
    cases ec with
    | none => simp [respReadEdge, hd] at h
    | some c => exact .inr ⟨_, by simpa [respReadEdge_done hd] using h.symm⟩

/-- R90. -/
theorem arbitrateEdge_cases {b : Bool} (h : arbitrateEdge b ec s = .next t) :
    t = arbitrateMeasurement s ∨ t = arbitrateSerial s ∨ t = arbitrateStatus b s := by
  cases ec with
  | none => simp [arbitrateEdge] at h
  | some c =>
    cases c with
    | measHigh | measMedium | measLow => exact .inl (by simpa [arbitrateEdge] using h.symm)
    | readSerial => exact .inr (.inl (by simpa [arbitrateEdge] using h.symm))
    | readStatus => exact .inr (.inr (by simpa [arbitrateEdge] using h.symm))
    | softReset => simp [arbitrateEdge] at h

/-- R93. -/
theorem completeEdge_cases (h : completeEdge s = .next t) : t = s ∨ t = s.release := by
  cases ha : s.pins.rspAck with
  | false => exact .inl (by simpa [completeEdge_wait ha] using h.symm)
  | true => exact .inr (by simpa [completeEdge_ack ha] using h.symm)

/-- R95: an acceptance writes the latched request, the attempt registers and, for an illegal request, the result code. -/
@[simp] theorem acceptRequest_frame (i : Instr) (s : State) :
    (acceptRequest i s).cfg = s.cfg ∧ (acceptRequest i s).script = s.script ∧ (acceptRequest i s).timer = s.timer ∧
      (acceptRequest i s).rlen = s.rlen ∧ (acceptRequest i s).rbuf = s.rbuf ∧
      (acceptRequest i s).resTRaw = s.resTRaw ∧ (acceptRequest i s).resRhRaw = s.resRhRaw ∧
      (acceptRequest i s).resSerial = s.resSerial ∧ (acceptRequest i s).resStatus = s.resStatus ∧
      (acceptRequest i s).resResetOk = s.resResetOk := by
  cases hc : requestCommand i with
  | none => simp [acceptRequest_of_none hc]
  | some c => simp [acceptRequest_of_some hc]

/-- R90, R95: an arbitration writes result registers, and `ATTEMPT` in a retry, and keeps the latched request, `PHASE`, the
timer and the response. -/
theorem arbitrateEdge_frame {b : Bool} (h : arbitrateEdge b ec s = .next t) :
    t.cfg = s.cfg ∧ t.script = s.script ∧ t.curOp = s.curOp ∧ t.curAddr = s.curAddr ∧ t.phase = s.phase ∧
      t.timer = s.timer ∧ t.rlen = s.rlen ∧ t.rbuf = s.rbuf := by
  obtain rfl | rfl | rfl := arbitrateEdge_cases h
  · obtain ⟨_, hm⟩ | ⟨_, hm⟩ := arbitrateMeasurement_cases s <;> simp [hm]
  · obtain ⟨_, hm⟩ | ⟨_, hm⟩ := arbitrateSerial_cases s <;> simp [hm]
  · obtain ⟨_, hm⟩ | ⟨_, _, hm⟩ | ⟨_, _, hm⟩ := arbitrateStatus_cases b s <;> simp [hm]

/-- Settles O24, state by state. -/
theorem requestEdgeFrame : Obligations.RequestEdgeFrame := by
  intro i s t h
  cases hf : s.fsm with
  | idle =>
    obtain rfl : acceptRequest i s = t := by simpa [exec_idle i hf] using h
    simp
  | cmdWrite =>
    obtain rfl | ⟨_, rfl⟩ := cmdWriteEdge_cases (exec_cmdWrite i hf ▸ h) <;> simp
  | settle =>
    obtain rfl | rfl | rfl := settleEdge_cases (exec_settle i hf ▸ h) <;> simp
  | respRead =>
    obtain rfl | ⟨_, rfl⟩ := respReadEdge_cases (exec_respRead i hf ▸ h) <;> simp
  | arbitrate => simp [arbitrateEdge_frame (exec_arbitrate i hf ▸ h)]
  | complete =>
    obtain rfl | rfl := completeEdge_cases (exec_complete i hf ▸ h) <;> simp

end Sys2Proof.Machine
end

section
/-! The order in which the states of the machine are entered (R48, R49, R95). -/

namespace Sys2Proof.Machine

/-- R53, R54: a code that names a command is at most 5. -/
theorem code_le_five_of_requestCommand {op : ReqCode} {c : Cmd} (hc : requestCommand (decodeReq op) = some c) :
    op.toNat ≤ 5 := by
  revert op
  cases c <;> decide

/-- Settles O28, by the rows of the transition table. -/
theorem statesEnteredInProtocolOrder : Obligations.StatesEnteredInProtocolOrder := by
  intro s t hstep hr hne
  obtain ⟨_, u, hu, rfl⟩ := step_next hstep
  cases hu with
  | reset hrst => simp [hrst] at hr
  | idleWait | writeWait | settleTick | readWait | completeWait => exact absurd rfl hne
  | acceptIllegal _ hf hv hc => simp [hf, hv, (requestCommand_decodeReq_eq_none _).1 hc]
  | accept _ _ hf hv hc => simp [hf, hv, code_le_five_of_requestCommand hc]
  | writeDone _ _ hf hd => simp [hf, hd]
  | settleReset _ _ hf ht hc hl => simp [hf, ht, hc, (respLen_eq_zero _).1 hl]
  | settleRead _ _ hf ht hc hl => simp [hf, ht, hc, mt (respLen_eq_zero _).2 hl]
  | readDone _ _ hf hd => simp [hf, hd]
  | judgeMeasurement _ _ hf hc hm => obtain rfl | rfl | rfl := hm <;> simp [hf, hc]
  | judgeSerial _ hf hc => simp [hf, hc]
  | judgeStatus _ hf hc =>
    obtain ⟨hv, hm⟩ | ⟨_, ha, hm⟩ | ⟨hv, ha, hm⟩ := arbitrateStatus_cases (decide (decodeReq s.curOp = .softReset)) s
    · simp [hm, hf, hc, hv]
    · simp [hm, hf, hc, show s.attempt = 10#4 from ha]
    · simp [hm, hf, hc, hv, show s.attempt ≠ 10#4 from ha]
  | completeAck _ hf ha => simp [hf, ha]

end Sys2Proof.Machine
end

section
/-! Every request reaches `COMPLETE` when the transport answers (R98, R134, R150): an answered edge brings it nearer, and an
unanswered one leaves it where it is. -/

namespace Sys2Proof.Safety

open Sys2Proof.Machine

variable {s t u : State} {c : Cmd}

/-- A request in progress: what its completion needs of the invariant. -/
structure InProgress (s : State) : Prop where
  params_wf      : s.cfg.wf = true
  is_busy        : busy s
  attempt_le     : s.attempt.toNat ≤ 10
  command        : ∃ c, s.ec = some c
  read_not_reset : s.fsm = .respRead ∨ s.fsm = .arbitrate → s.ec ≠ some .softReset

theorem Inv.inProgress (hI : Inv s) (hb : busy s) : InProgress s :=
  ⟨hI.params_wf, hb, hI.attempt_le, hI.ec_of_busy hb, hI.read_not_reset⟩

theorem InProgress.nextEdge (h : InProgress s) : InProgress s.nextEdge :=
  ⟨h.params_wf, h.is_busy, h.attempt_le, h.command, h.read_not_reset⟩

/-! The edges that are left (R150), state by state. -/

theorem edgesLeft_cmdWrite (hf : s.fsm = .cmdWrite) (hc : s.ec = some c) :
    edgesLeft s = settleTicks s.cfg c + 2 + afterSettle s c := by simp [edgesLeft, hf, hc]

theorem edgesLeft_settle (hf : s.fsm = .settle) (hc : s.ec = some c) :
    edgesLeft s = s.timer + 1 + afterSettle s c := by simp [edgesLeft, hf, hc]

theorem edgesLeft_respRead (hf : s.fsm = .respRead) (hc : s.ec = some c) :
    edgesLeft s = 2 + laterEdges s c := by simp [edgesLeft, hf, hc]

theorem edgesLeft_arbitrate (hf : s.fsm = .arbitrate) (hc : s.ec = some c) :
    edgesLeft s = 1 + laterEdges s c := by simp [edgesLeft, hf, hc]

/-- A request in progress has an edge left. -/
theorem InProgress.edgesLeft_pos (h : InProgress s) : 1 ≤ edgesLeft s := by
  obtain ⟨c, hc⟩ := h.command
  cases hf : s.fsm with
  | idle => exact absurd hf h.is_busy.1
  | complete => exact absurd hf h.is_busy.2
  | cmdWrite => rw [edgesLeft_cmdWrite hf hc]; omega
  | settle => rw [edgesLeft_settle hf hc]; omega
  | respRead => rw [edgesLeft_respRead hf hc]; omega
  | arbitrate => rw [edgesLeft_arbitrate hf hc]; omega

/-- R88, R150: the settle of the reset command leaves ten status attempts, and the first of them begins with its write. -/
theorem edgesLeft_settleReset (hf : s.fsm = .settle) (hc : s.ec = some .softReset) :
    edgesLeft (s.beginAttempts true 1#4) < edgesLeft s := by
  have hleft : edgesLeft (s.beginAttempts true 1#4) =
      settleTicks s.cfg .readStatus + 2 + (2 + 9 * statusAttemptEdges s.cfg) :=
    edgesLeft_cmdWrite rfl (ec_readStatus (.inl rfl))
  have hafter : afterSettle s .softReset = 10 * statusAttemptEdges s.cfg := rfl
  rw [hleft, edgesLeft_settle hf hc, hafter, statusAttemptEdges]
  omega

/-- R91: a retry before the 10th attempt counts one more. -/
theorem toNat_retry_attempt (ha : s.attempt.toNat < 10) : s.retry.attempt.toNat = s.attempt.toNat + 1 :=
  BitVec.toNat_add_of_lt (by simp; omega)

/-- R91, R150: a retry takes one attempt off those that are left. -/
theorem edgesLeft_retry (hf : s.fsm = .arbitrate) (hc : s.ec = some .readStatus) (ha : s.attempt.toNat < 10) :
    edgesLeft s.retry < edgesLeft s := by
  have hnext := toNat_retry_attempt ha
  have hlater : laterEdges s .readStatus = laterEdges s.retry .readStatus + statusAttemptEdges s.cfg := by
    have hcount : 10 - s.attempt.toNat = 10 - s.retry.attempt.toNat + 1 := by omega
    simp [laterEdges, hcount, Nat.succ_mul]
  have hleft : edgesLeft s.retry = settleTicks s.cfg .readStatus + 2 + (2 + laterEdges s.retry .readStatus) :=
    edgesLeft_cmdWrite rfl hc
  rw [hleft, edgesLeft_arbitrate hf hc, hlater, statusAttemptEdges]
  omega

/-- R98: what an edge without a reset makes of a request in progress. -/
theorem InProgress.transition (h : InProgress s) (hr : s.pins.rst = false) (hu : Transition s u) :
    u.fsm = .complete ∨ (InProgress u ∧ edgesLeft u < edgesLeft s) ∨ (answered s = false ∧ u = s) := by
  obtain ⟨hw, hb, hle, hcommand, hread⟩ := h
  cases hu with
  | reset hrst => simp [hrst] at hr
  | idleWait _ hf | acceptIllegal _ hf | accept _ _ hf => exact absurd hf hb.1
  | completeWait _ hf | completeAck _ hf => exact absurd hf hb.2
  | writeWait _ hf hd => exact .inr (.inr ⟨by simp [answered, State.outputs, hf, hd], rfl⟩)
  | readWait _ hf hd => exact .inr (.inr ⟨by simp [answered, State.outputs, hf, hd], rfl⟩)
  | writeDone c _ hf _ hc =>
    refine .inr (.inl ⟨⟨hw, by simp [busy], hle, hcommand, by simp⟩, ?_⟩)
    have hleft : edgesLeft (s.loadTimer (settleTicks s.cfg c)) = settleTicks s.cfg c + 1 + afterSettle s c :=
      edgesLeft_settle rfl hc
    rw [hleft, edgesLeft_cmdWrite hf hc]
    omega
  | settleTick _ hf ht =>
    obtain ⟨c, hc⟩ := hcommand
    refine .inr (.inl ⟨⟨hw, hb, hle, ⟨c, hc⟩, hread⟩, ?_⟩)
    have hleft : edgesLeft s.tick = s.timer - 1 + 1 + afterSettle s c := edgesLeft_settle hf hc
    rw [hleft, edgesLeft_settle hf hc]
    omega
  | settleReset c _ hf _ hc hl =>
    obtain rfl := (respLen_eq_zero c).1 hl
    exact .inr (.inl ⟨⟨hw, by simp [busy], by simp, ⟨_, ec_readStatus (.inl rfl)⟩, by simp⟩,
      edgesLeft_settleReset hf hc⟩)
  | settleRead c _ hf _ hc hl =>
    have hne : c ≠ .softReset := mt (respLen_eq_zero c).2 hl
    refine .inr (.inl ⟨⟨hw, by simp [busy], hle, hcommand, fun _ heq => hne (Option.some.inj (hc.symm.trans heq))⟩, ?_⟩)
    have hleft : edgesLeft s.beginRead = 2 + laterEdges s c := edgesLeft_respRead rfl hc
    rw [hleft, edgesLeft_settle hf hc, afterSettle, if_neg hne]
    omega
  | readDone c _ hf _ hc =>
    refine .inr (.inl ⟨⟨hw, by simp [busy], hle, hcommand, fun _ => hread (.inl hf)⟩, ?_⟩)
    have hleft : edgesLeft (s.storeResponse (respLen c)) = 1 + laterEdges s c := edgesLeft_arbitrate rfl hc
    rw [hleft, edgesLeft_respRead hf hc]
    omega
  | judgeMeasurement => exact .inl (arbitrateMeasurement_frame s).1
  | judgeSerial => exact .inl (arbitrateSerial_frame s).1
  | judgeStatus _ hf hc =>
    obtain hcomplete | ⟨ha, hretry⟩ := arbitrateStatus_complete_or_retry (decide (decodeReq s.curOp = .softReset)) s
    · exact .inl hcomplete
    · have hlt : s.attempt.toNat < 10 := lt_of_le_of_ne hle fun heq => ha (BitVec.eq_of_toNat_eq heq)
      rw [hretry]
      exact .inr (.inl ⟨⟨hw, by simp [busy], (toNat_retry_attempt hlt).trans_le hlt, hcommand, by simp⟩,
        edgesLeft_retry hf hc hlt⟩)

/-- R123: a request in progress never stops the block. -/
theorem InProgress.step_answers (h : InProgress s) (hr : s.pins.rst = false) : ∃ t, step s = .next t := by
  have hw := h.params_wf
  obtain ⟨c, hc⟩ := h.command
  cases hf : s.fsm with
  | idle => exact absurd hf h.is_busy.1
  | complete => exact absurd hf h.is_busy.2
  | cmdWrite =>
    cases hd : s.pins.wrDone with
    | false => exact ⟨_, step_cmdWrite_wait hw hr hf hd⟩
    | true => exact ⟨_, by rw [step_cmdWrite hw hr hf, hc, cmdWriteEdge_done hd, onNext]⟩
  | settle =>
    by_cases ht : s.timer = 0
    · obtain ⟨t, hstep, _⟩ := step_settle_end hw hr hf ht hc
      exact ⟨t, hstep⟩
    · exact ⟨_, by rw [step_settle hw hr hf, settleEdge_tick _ ht, onNext]⟩
  | respRead =>
    cases hd : s.pins.rdDone with
    | false => exact ⟨_, step_respRead_wait hw hr hf hd⟩
    | true => exact ⟨_, by rw [step_respRead hw hr hf, hc, respReadEdge_done hd, onNext]⟩
  | arbitrate =>
    rw [step_arbitrate hw hr hf, hc]
    cases c with
    | softReset => exact absurd hc (h.read_not_reset (.inr hf))
    | measHigh | measMedium | measLow | readSerial | readStatus => exact ⟨_, rfl⟩

/-- R98: an edge completes a request in progress, brings it nearer to completion, or leaves it unanswered. -/
theorem InProgress.step_cases (h : InProgress s) (hr : s.pins.rst = false) :
    ∃ t, step s = .next t ∧ (t.fsm = .complete ∨ (InProgress t ∧ edgesLeft t < edgesLeft s) ∨
      (answered s = false ∧ t = s.nextEdge)) := by
  obtain ⟨t, hstep⟩ := h.step_answers hr
  obtain ⟨_, u, hu, rfl⟩ := step_next hstep
  refine ⟨_, hstep, ?_⟩
  obtain hf | ⟨hprog, hlt⟩ | ⟨ha, rfl⟩ := h.transition hr hu
  · exact .inl hf
  · exact .inr (.inl ⟨hprog.nextEdge, hlt⟩)
  · exact .inr (.inr ⟨ha, rfl⟩)

/-- R134: what is left of the transport's duty after an edge; an unanswered edge uses up one of `w`. -/
theorem answersWithin_succ {k w : Nat} (hb : busy s) (h : answersWithin (k + 1) w s = true) :
    s.pins.rst = false ∧ ∃ w', w' ≤ w ∧ (answered s = false → w' < w) ∧
      ∀ t, step s = .next t → answersWithin k w' t = true := by
  rw [answersWithin, if_pos hb] at h
  cases hstep : step s with
  | fault _ => simp [hstep] at h
  | refused _ => simp [hstep] at h
  | next t =>
    cases ha : answered s with
    | true =>
      obtain ⟨⟨hr, _⟩, hrest⟩ : (s.pins.rst = false ∧ dutyMet s = true) ∧ answersWithin k w t = true := by
        simpa [hstep, ha] using h
      refine ⟨hr, w, le_rfl, by simp, fun t' ht' => ?_⟩
      obtain rfl : t = t' := by simpa using ht'
      exact hrest
    | false =>
      obtain ⟨⟨hr, _⟩, hpos, hrest⟩ :
          (s.pins.rst = false ∧ dutyMet s = true) ∧ 1 ≤ w ∧ answersWithin k (w - 1) t = true := by
        simpa [hstep, ha] using h
      refine ⟨hr, w - 1, Nat.sub_le w 1, fun _ => by omega, fun t' ht' => ?_⟩
      obtain rfl : t = t' := by simpa using ht'
      exact hrest

/-- R98, R134: a request in progress completes within the edges that are left for it and those left unanswered. -/
theorem InProgress.reaches_complete (k : Nat) {w : Nat} (h : InProgress s) (hk : edgesLeft s + w ≤ k)
    (ha : answersWithin k w s = true) : ∃ j t, 1 ≤ j ∧ j ≤ k ∧ runSteps j s = .next t ∧ t.fsm = .complete := by
  induction k generalizing w s with
  | zero =>
    have hpos := h.edgesLeft_pos
    omega
  | succ k ih =>
    obtain ⟨hr, w', hle, hlt, hrest⟩ := answersWithin_succ h.is_busy ha
    obtain ⟨t, hstep, hcases⟩ := h.step_cases hr
    have hlater : InProgress t → edgesLeft t + w' ≤ k →
        ∃ j v, 1 ≤ j ∧ j ≤ k + 1 ∧ runSteps j s = .next v ∧ v.fsm = .complete := by
      intro hprog hk'
      obtain ⟨j, v, _, hj, hrun, hv⟩ := ih hprog hk' (hrest t hstep)
      exact ⟨j + 1, v, by omega, by omega, by rw [runSteps_succ_of_step j hstep, hrun], hv⟩
    obtain hf | ⟨hprog, hless⟩ | ⟨hna, rfl⟩ := hcases
    · exact ⟨1, t, le_rfl, by omega, runSteps_succ_of_step 0 hstep, hf⟩
    · exact hlater hprog (by omega)
    · have hless := hlt hna
      have hsame : edgesLeft s.nextEdge = edgesLeft s := rfl
      exact hlater h.nextEdge (by omega)

/-- R134: at an edge that answers the write or the read it is asked for, the transport answers. -/
theorem answered_of_done (hwrite : s.fsm = .cmdWrite → s.pins.wrDone = true)
    (hread : s.fsm = .respRead → s.pins.rdDone = true) : answered s = true := by
  cases hf : s.fsm with
  | cmdWrite => simp [answered, State.outputs, hf, hwrite hf]
  | respRead => simp [answered, State.outputs, hf, hread hf]
  | idle | settle | arbitrate | complete => simp [answered, State.outputs, hf]

/-- Settles O34: the one edge by `InProgress.step_cases`, and the run by induction on the edges. -/
theorem answeredRequestReachesComplete : Obligations.AnsweredRequestReachesComplete := by
  refine ⟨fun s hI hb hr hwrite hread => ?_, fun s w hI hb _ ha => (hI.inProgress hb).reaches_complete _ le_rfl ha⟩
  obtain ⟨t, hstep, hf | ⟨hprog, hless⟩ | ⟨hna, _⟩⟩ := (hI.inProgress hb).step_cases hr
  · exact ⟨t, hstep, .inl hf⟩
  · exact ⟨t, hstep, .inr ⟨hprog.is_busy, hless⟩⟩
  · exact absurd (answered_of_done hwrite hread) (by simp [hna])

end Sys2Proof.Safety
end

section
/-! A reserved request code (R105). -/

namespace Sys2Proof.Machine

/-- Settles O22: a reserved code names no command, so its acceptance completes it. -/
theorem illegalRequestCompletesAtOnce : Obligations.IllegalRequestCompletesAtOnce := by
  intro code s _ hf
  exact ⟨_, (exec_idle (.illegal code) hf).trans (congrArg _ (acceptRequest_of_none rfl)), rfl, rfl, rfl⟩

end Sys2Proof.Machine
end

section
/-! Runs together with the bus transactions they end, and how they compose. -/

namespace Sys2Proof.Machine

variable {s t u : State} {j k : Nat} {before after : List BusEvent}

/-- `k` edges lead from `s` to `t`, and `events` are the bus transactions that they end. -/
structure RunsTo (k : Nat) (s t : State) (events : List BusEvent) : Prop where
  run   : runSteps k s = .next t
  trace : busTrace k s = events

theorem RunsTo.refl (s : State) : RunsTo 0 s s [] := ⟨rfl, rfl⟩

theorem RunsTo.of_step (h : step s = .next t) : RunsTo 1 s t s.busEvent.toList :=
  ⟨runSteps_succ_of_step 0 h, by rw [busTrace_succ_of_step 0 h, busTrace, List.append_nil]⟩

theorem RunsTo.trans (h : RunsTo j s t before) (h' : RunsTo k t u after) : RunsTo (j + k) s u (before ++ after) :=
  ⟨(runSteps_add j k h.run).trans h'.run, by rw [busTrace_add j k h.run, h.trace, h'.trace]⟩

/-- A run no edge of which ends a transaction has an empty trace. -/
theorem busTrace_eq_nil (k : Nat) (h : ∀ j < k, ∀ t, runSteps j s = .next t → t.busEvent = none) :
    busTrace k s = [] := by
  induction k generalizing s with
  | zero => rfl
  | succ k ih =>
    cases hs : step s with
    | next u =>
      have hlater : busTrace k u = [] := ih fun j hj t ht =>
        h (j + 1) (Nat.succ_lt_succ hj) t ((runSteps_succ_of_step j hs).trans ht)
      rw [busTrace_succ_of_step k hs, h 0 k.succ_pos s rfl, hlater]
      rfl
    | fault _ => simp [busTrace, hs]
    | refused _ => simp [busTrace, hs]

/-- Edges that leave the state as it was and end no transaction, any number of them. -/
theorem RunsTo.of_stays {stays : Pins → Prop} {wait rest : List Pins}
    (hstep : ∀ rest p, stays p → step (s.atEdge rest p) = .next { s with script := rest })
    (hquiet : ∀ rest p, stays p → (s.atEdge rest p).busEvent = none)
    (hs : s.script = wait ++ rest) (hwait : ∀ p ∈ wait, stays p) :
    RunsTo wait.length s { s with script := rest } [] := by
  have hrun : ∀ j ≤ wait.length, runSteps j s = .next { s with script := s.script.drop j } := fun j hj =>
    runSteps_of_stays hstep j s.script (by simp [hs]; omega) fun p hp => by
      rw [hs, List.take_append_of_le_length hj] at hp
      exact hwait p (List.mem_of_mem_take hp)
  constructor
  · rw [hrun _ le_rfl, hs, List.drop_left]
  · refine busTrace_eq_nil _ fun j hj t ht => ?_
    obtain rfl : { s with script := s.script.drop j } = t := by simpa [hrun j hj.le] using ht
    rw [hs, List.drop_append_of_le_length hj.le, List.drop_eq_getElem_cons hj]
    exact hquiet _ _ (hwait _ (List.getElem_mem hj))

end Sys2Proof.Machine
end

section
/-! The bus transaction that the edge of each state ends (R32, R38, R43). -/

namespace Sys2Proof.Machine

variable {s : State} {c : Cmd}

/-- R32: only an edge of `CMD_WRITE` or `RESP_READ` ends a transaction. -/
theorem busEvent_eq_none (hwrite : s.fsm ≠ .cmdWrite) (hread : s.fsm ≠ .respRead) : s.busEvent = none :=
  Option.eq_none_iff_forall_not_mem.2 fun _ he => by
    obtain ⟨_, _, ⟨hf, _⟩ | ⟨hf, _⟩⟩ := busEvent_cases he
    · exact hwrite hf
    · exact hread hf

theorem busEvent_cmdWrite_wait (hf : s.fsm = .cmdWrite) (hd : s.pins.wrDone = false) : s.busEvent = none := by
  simp [State.busEvent, hf, hd]

theorem busEvent_respRead_wait (hf : s.fsm = .respRead) (hd : s.pins.rdDone = false) : s.busEvent = none := by
  simp [State.busEvent, hf, hd]

/-- R38: the write that `wr_done` ends. -/
theorem busEvent_cmdWrite_done (hr : s.pins.rst = false) (hf : s.fsm = .cmdWrite) (hd : s.pins.wrDone = true)
    (hc : s.ec = some c) : s.busEvent = some (.write s.curAddr (wireBytes (commandFrame s.cfg c))) := by
  simp [State.busEvent, hr, hf, hd, (outputs_of_ec hc).1, commandFrame]

/-- R43: the read that `rd_done` ends. -/
theorem busEvent_respRead_done (hr : s.pins.rst = false) (hf : s.fsm = .respRead) (hd : s.pins.rdDone = true)
    (hc : s.ec = some c) : s.busEvent = some (.read s.curAddr (BitVec.ofNat 3 (respLen c))) := by
  simp [State.busEvent, hr, hf, hd, (outputs_of_ec hc).2]

end Sys2Proof.Machine
end

section
/-! The answer of the transport, from the edge of `rd_done` to the arbiter (R40, R76, R89). -/

namespace Sys2Proof.Machine

open Sys2Proof.Safety

variable {s : State} {c : Cmd} {p : Pins} {rest : List Pins}

/-- The state at the `ARBITRATE` edge after a response read for the command `c` that the pins `p` answered. -/
def State.answeredBy (s : State) (c : Cmd) (p : Pins) (rest : List Pins) : State :=
  ((s.atEdge rest p).storeResponse (respLen c)).nextEdge

section AnsweredBy
variable (s c p rest)
@[simp] theorem answeredBy_fsm : (s.answeredBy c p rest).fsm = .arbitrate := rfl
@[simp] theorem answeredBy_curOp : (s.answeredBy c p rest).curOp = s.curOp := rfl
@[simp] theorem answeredBy_phase : (s.answeredBy c p rest).phase = s.phase := rfl
@[simp] theorem answeredBy_curAddr : (s.answeredBy c p rest).curAddr = s.curAddr := rfl
@[simp] theorem answeredBy_attempt : (s.answeredBy c p rest).attempt = s.attempt := rfl
@[simp] theorem answeredBy_resTRaw : (s.answeredBy c p rest).resTRaw = s.resTRaw := rfl
@[simp] theorem answeredBy_resRhRaw : (s.answeredBy c p rest).resRhRaw = s.resRhRaw := rfl
@[simp] theorem answeredBy_resSerial : (s.answeredBy c p rest).resSerial = s.resSerial := rfl
@[simp] theorem answeredBy_resStatus : (s.answeredBy c p rest).resStatus = s.resStatus := rfl
@[simp] theorem answeredBy_resResetOk : (s.answeredBy c p rest).resResetOk = s.resResetOk := rfl
@[simp] theorem answeredBy_cfg : (s.answeredBy c p rest).cfg = s.cfg := rfl
@[simp] theorem answeredBy_script : (s.answeredBy c p rest).script = rest := rfl

/-- R89: `RLEN` holds the delivered length, clamped to the requested count. -/
theorem toNat_answeredBy_rlen : (s.answeredBy c p rest).rlen.toNat = min p.rdLen.toNat (respLen c) :=
  deliveredLen_toNat (s.atEdge rest p) c
end AnsweredBy

/-- R89: a delivered position of the buffer holds the byte of the answer. -/
theorem answeredBy_rbuf_get {i : Fin 6} (hi : i.val < min p.rdLen.toNat (respLen c)) :
    (s.answeredBy c p rest).rbuf.get i = p.rdByte i :=
  (s.atEdge rest p).responseBuf_delivered (respLen c) i hi (respLen_le c)

/-- R72: a triplet that was delivered whole is judged by the bytes of the answer. -/
theorem answeredBy_tripletOk {k : Fin 2} (hk : 3 * k.val + 2 < min p.rdLen.toNat (respLen c)) :
    (s.answeredBy c p rest).rbuf.tripletOk k = tripletValid (p.rdByte ⟨3 * k.val, by omega⟩)
      (p.rdByte ⟨3 * k.val + 1, by omega⟩) (p.rdByte ⟨3 * k.val + 2, by omega⟩) := by
  rw [RBuf.tripletOk, answeredBy_rbuf_get (by simp; omega), answeredBy_rbuf_get (by simp; omega), answeredBy_rbuf_get hk]

/-- R76, R77: the arbiter's verdict on the buffer is that on the answer's bytes. -/
theorem verdict_answeredBy {n : Nat} (hn : respLen c = 3 * n) :
    verdict n (s.answeredBy c p rest) = answerValid n p := by
  rw [verdict, answerValid, toNat_answeredBy_rlen, hn]
  by_cases hfull : 3 * n ≤ p.rdLen.toNat
  · simp only [Nat.min_eq_right hfull, hfull, le_refl]
    congr 2
    funext k
    by_cases hk : k.val < n
    · rw [answeredBy_tripletOk (by omega)]
    · simp [hk]
  · have hshort : ¬ 3 * n ≤ min p.rdLen.toNat (3 * n) := by omega
    simp [hfull, hshort]

/-- R76: an answer that validates was delivered whole. -/
theorem le_rdLen_of_answerValid {n : Nat} (h : answerValid n p = true) : 3 * n ≤ p.rdLen.toNat := by
  obtain ⟨hlen, _⟩ := (Bool.and_eq_true _ _).mp h
  exact of_decide_eq_true hlen

/-- R40, R61: the data words of a response of two triplets that was delivered whole. -/
theorem answeredBy_word (hc : respLen c = 6) (hp : 6 ≤ p.rdLen.toNat) (k : Fin 2) :
    (s.answeredBy c p rest).rbuf.word k = answerWord p k := by
  rw [RBuf.word, RBuf.memRead_two, answeredBy_rbuf_get (by simp; omega), answeredBy_rbuf_get (by simp; omega), answerWord]

/-- R40, R80: the two bytes of the first data word, each where it was delivered. -/
theorem answeredBy_word_zero_bytes (hc : 2 ≤ respLen c) :
    (1 ≤ p.rdLen.toNat → ((s.answeredBy c p rest).rbuf.word 0).extractLsb' 8 8 = p.rdByte 0) ∧
      (2 ≤ p.rdLen.toNat → ((s.answeredBy c p rest).rbuf.word 0).extractLsb' 0 8 = p.rdByte 1) := by
  rw [RBuf.word_zero]
  exact ⟨fun hp => BitVec.extractLsb'_append_eq_left.trans (answeredBy_rbuf_get (by simp; omega)),
    fun hp => BitVec.extractLsb'_append_eq_right.trans (answeredBy_rbuf_get (by simp; omega))⟩

end Sys2Proof.Machine
end

section
/-! The parts of a request: its acceptance, a command write with its settle, the response read, and one whole attempt
(R43, R86 to R90, R150). -/

namespace Sys2Proof.Machine

open Sys2Proof.Safety

variable {s u : State} {c : Cmd} {rest : List Pins}

/-- The state `s` with the pins `rest` at the coming edges. -/
abbrev State.withScript (s : State) (rest : List Pins) : State := { s with script := rest }

/-- The state after the edge that accepts, on the pins `p`, a request with the command `c` (R86). -/
def State.accepted (s : State) (p : Pins) (c : Cmd) : State :=
  ((s.latch p.reqOp p.devAddr).beginAttempts (c == .readStatus) (if c = .softReset then 0#4 else 1#4)).nextEdge

section Accepted
variable (s c) (p : Pins)
@[simp] theorem accepted_fsm : (s.accepted p c).fsm = .cmdWrite := rfl
@[simp] theorem accepted_curOp : (s.accepted p c).curOp = p.reqOp := rfl
@[simp] theorem accepted_phase : (s.accepted p c).phase = (c == .readStatus) := rfl
@[simp] theorem accepted_curAddr : (s.accepted p c).curAddr = p.devAddr := rfl
@[simp] theorem accepted_attempt : (s.accepted p c).attempt = if c = .softReset then 0#4 else 1#4 := rfl
@[simp] theorem accepted_resTRaw : (s.accepted p c).resTRaw = s.resTRaw := rfl
@[simp] theorem accepted_resRhRaw : (s.accepted p c).resRhRaw = s.resRhRaw := rfl
@[simp] theorem accepted_resSerial : (s.accepted p c).resSerial = s.resSerial := rfl
@[simp] theorem accepted_resStatus : (s.accepted p c).resStatus = s.resStatus := rfl
@[simp] theorem accepted_resResetOk : (s.accepted p c).resResetOk = s.resResetOk := rfl
@[simp] theorem accepted_cfg : (s.accepted p c).cfg = s.cfg := rfl
@[simp] theorem accepted_script : (s.accepted p c).script = s.script.tail := rfl
end Accepted

/-- R82, R86: an accepted request first sends its own command. -/
theorem ec_accepted {p : Pins} (hc : requestCommand (decodeReq p.reqOp) = some c) : (s.accepted p c).ec = some c := by
  rw [ec_eq, effectiveCommand, accepted_curOp, accepted_phase, hc]
  by_cases h : c = .readStatus <;> simp [h]

/-- R86: the acceptance of a legal request. -/
theorem runsTo_accept {p : Pins} (hw : s.cfg.wf = true) (hf : s.fsm = .idle) (hr : p.rst = false)
    (hv : p.reqValid = true) (hc : requestCommand (decodeReq p.reqOp) = some c) (hs : s.script = p :: rest) :
    RunsTo 1 s (s.accepted p c) [] := by
  have hp := pins_of_script hs
  have hstep : step s = .next (s.accepted p c) := by
    rw [step_idle_accept hw (hp ▸ hr) hf (hp ▸ hv), hp, acceptRequest_of_some hc, encodeReq_decodeReq, hp]
    rfl
  simpa [busEvent_eq_none, hf] using RunsTo.of_step hstep

/-- R88: `SETTLE` counts down without a bus transaction. -/
theorem runsTo_ticks (n : Nat) (hw : s.cfg.wf = true) (hf : s.fsm = .settle) (hn : n ≤ s.timer)
    (hlen : n ≤ s.script.length) (hr : ∀ p ∈ s.script.take n, p.rst = false) : RunsTo n s (s.afterTicks n) [] := by
  have hrun : ∀ j ≤ n, runSteps j s = .next (s.afterTicks j) := fun j hj =>
    runSteps_settle j s hw hf (hj.trans hn) (hj.trans hlen) fun p hp => hr p (List.take_subset_take_left _ hj hp)
  refine ⟨hrun n le_rfl, busTrace_eq_nil n fun j hj t ht => ?_⟩
  obtain rfl : s.afterTicks j = t := by simpa [hrun j hj.le] using ht
  exact busEvent_eq_none (by simp [hf]) (by simp [hf])

/-- R88: the settle, from a loaded timer to the edge that ends it. -/
theorem runsTo_settle {settle : List Pins} (hw : s.cfg.wf = true) (hf : s.fsm = .settle)
    (hlen : settle.length = s.timer + 1) (hr : ∀ e ∈ settle, e.rst = false) (hs : s.script = settle ++ rest)
    (hend : settleEdge s.ec { s with timer := 0, script := rest } = .next u) : RunsTo settle.length s u [] := by
  obtain ⟨ticks, last, rfl⟩ : ∃ ticks last, settle = ticks ++ [last] :=
    ⟨_, _, (List.dropLast_concat_getLast (List.ne_nil_of_length_eq_add_one hlen)).symm⟩
  have hticks : ticks.length = s.timer := by simpa using hlen
  have hs : s.script = ticks ++ last :: rest := by simpa using hs
  have hcounted : RunsTo s.timer s (s.afterTicks s.timer) [] :=
    runsTo_ticks s.timer hw hf le_rfl (by simp [hs, ← hticks]) fun p hp =>
      hr p (List.mem_append_left _ (by simpa [hs, ← hticks] using hp))
  have hlast : (s.afterTicks s.timer).script = last :: rest := by simp [hs, ← hticks]
  have hrst : (s.afterTicks s.timer).pins.rst = false := by simp [pins_of_script hlast, hr]
  have hstep : step (s.afterTicks s.timer) = .next u := by
    rw [step_settle (s := s.afterTicks s.timer) hw hrst hf, settleEdge_nextEdge, State.nextEdge_eq hlast]
    simpa [ec_eq] using hend
  have hdone := RunsTo.of_step hstep
  rw [busEvent_eq_none (by simp [hf]) (by simp [hf])] at hdone
  simpa [hticks] using hcounted.trans hdone

/-- R87: the edge that ends a command write. -/
theorem runsTo_writeDone (hw : s.cfg.wf = true) (hr : s.pins.rst = false) (hf : s.fsm = .cmdWrite)
    (hd : s.pins.wrDone = true) (hc : s.ec = some c) :
    RunsTo 1 s (s.loadTimer (settleTicks s.cfg c)).nextEdge [.write s.curAddr (wireBytes (commandFrame s.cfg c))] := by
  have hstep : step s = .next (s.loadTimer (settleTicks s.cfg c)).nextEdge := by
    rw [step_cmdWrite hw hr hf, hc, cmdWriteEdge_done hd, onNext]
  simpa [busEvent_cmdWrite_done hr hf hd hc] using RunsTo.of_step hstep

/-- R89: the edge that ends a response read. -/
theorem runsTo_readDone (hw : s.cfg.wf = true) (hr : s.pins.rst = false) (hf : s.fsm = .respRead)
    (hd : s.pins.rdDone = true) (hc : s.ec = some c) :
    RunsTo 1 s (s.storeResponse (respLen c)).nextEdge [.read s.curAddr (BitVec.ofNat 3 (respLen c))] := by
  have hstep : step s = .next (s.storeResponse (respLen c)).nextEdge := by
    rw [step_respRead hw hr hf, hc, respReadEdge_done hd, onNext]
  simpa [busEvent_respRead_done hr hf hd hc] using RunsTo.of_step hstep

/-- R87, R88: a command write with its settle, up to the state `u` in which the settle ends. -/
theorem runsTo_writePart {w : WritePart} (hw : s.cfg.wf = true) (hf : s.fsm = .cmdWrite) (hc : s.ec = some c)
    (hfit : w.Fits s.cfg c) (hs : s.script = w.script ++ rest)
    (hend : settleEdge (some c) ((s.loadTimer 0).withScript rest) = .next u) :
    RunsTo w.script.length s u [.write s.curAddr (wireBytes (commandFrame s.cfg c))] := by
  obtain ⟨hwait, hr, hd, hlen, hsettle⟩ := hfit
  have hs : s.script = w.wait ++ w.done :: (w.settle ++ rest) := by simpa [WritePart.script] using hs
  have hwaits := RunsTo.of_stays (fun rest p ⟨hr, hd⟩ => step_cmdWrite_wait (s := s.atEdge rest p) hw hr hf hd)
    (fun rest p ⟨_, hd⟩ => busEvent_cmdWrite_wait (s := s.atEdge rest p) hf hd) hs hwait
  have hdone := runsTo_writeDone (s := s.atEdge (w.settle ++ rest) w.done) hw hr hf hd hc
  have hsettled := runsTo_settle (s := (s.loadTimer (settleTicks s.cfg c)).withScript (w.settle ++ rest)) hw rfl hlen
    hsettle rfl ((congrArg (settleEdge · _) hc).trans hend)
  have hlength : w.script.length = w.wait.length + (1 + w.settle.length) := by
    simp [WritePart.script, Nat.add_comm]
  exact hlength ▸ hwaits.trans (hdone.trans hsettled)

/-- R89: a response read. -/
theorem runsTo_read {wait : List Pins} {p : Pins} (hw : s.cfg.wf = true) (hf : s.fsm = .respRead)
    (hc : s.ec = some c) (hwait : ∀ e ∈ wait, e.rst = false ∧ e.rdDone = false) (hr : p.rst = false)
    (hd : p.rdDone = true) (hs : s.script = wait ++ p :: rest) :
    RunsTo (wait.length + 1) s (s.answeredBy c p rest) [.read s.curAddr (BitVec.ofNat 3 (respLen c))] := by
  have hwaits := RunsTo.of_stays (fun rest p ⟨hr, hd⟩ => step_respRead_wait (s := s.atEdge rest p) hw hr hf hd)
    (fun rest p ⟨_, hd⟩ => busEvent_respRead_wait (s := s.atEdge rest p) hf hd) hs hwait
  exact hwaits.trans (runsTo_readDone (s := s.atEdge rest p) hw hr hf hd hc)

/-- R90: the judgement of a response. -/
theorem runsTo_judge {p : Pins} (hw : s.cfg.wf = true) (hf : s.fsm = .arbitrate) (hr : p.rst = false)
    (hs : s.script = p :: rest)
    (hend : arbitrateEdge (decide (decodeReq s.curOp = .softReset)) s.ec (s.withScript rest) = .next u) :
    RunsTo 1 s u [] := by
  have hstep : step s = .next u := by
    rw [step_arbitrate hw (pins_of_script hs ▸ hr) hf, arbitrateEdge_nextEdge, State.nextEdge_eq hs, hend]
  simpa [busEvent_eq_none, hf] using RunsTo.of_step hstep

/-- R43: one attempt of a command that has a response, up to the state `u` that its judgement leads to. -/
theorem runsTo_attempt {a : Attempt} (hw : s.cfg.wf = true) (hf : s.fsm = .cmdWrite) (hc : s.ec = some c)
    (hne : c ≠ .softReset) (hfit : a.Fits s.cfg c) (hs : s.script = a.script ++ rest)
    (hend : arbitrateEdge (decide (decodeReq s.curOp = .softReset)) (some c)
      ((s.loadTimer 0).answeredBy c a.readDone rest) = .next u) :
    RunsTo a.script.length s u (attemptEvents s.cfg s.curAddr c) := by
  obtain ⟨hwrite, hwait, hdone, hd, hjudge⟩ := hfit
  have hs : s.script = a.write.script ++ (a.readWait ++ a.readDone :: a.judge :: rest) := by
    simpa [Attempt.script] using hs
  have hwritten := runsTo_writePart hw hf hc hwrite hs (settleEdge_read rfl hne)
  have hread := runsTo_read (rest := a.judge :: rest)
    (s := ((s.loadTimer 0).withScript (a.readWait ++ a.readDone :: a.judge :: rest)).beginRead)
    hw rfl hc hwait hdone hd rfl
  have hjudged := runsTo_judge (s := (s.loadTimer 0).answeredBy c a.readDone (a.judge :: rest)) hw rfl hjudge rfl
    ((congrArg (arbitrateEdge _ · _) hc).trans hend)
  have hlength : a.script.length = a.write.script.length + (a.readWait.length + 1 + 1) := by
    simp [Attempt.script]
  exact hlength ▸ hwritten.trans (hread.trans hjudged)

end Sys2Proof.Machine
end

section
/-! A request that makes one attempt: the measurements and READ_SERIAL (R97, R99 to R102). -/

namespace Sys2Proof.Machine

open Sys2Proof.Safety

variable {s u : State} {c : Cmd} {p : Pins} {rest : List Pins}

/-- The state at the `ARBITRATE` edge of a request with the command `c` that was accepted on the pins `p`, its first attempt
answered by the pins `q`. -/
abbrev State.firstAnswered (s : State) (p : Pins) (c : Cmd) (q : Pins) (rest : List Pins) : State :=
  ((s.accepted p c).loadTimer 0).answeredBy c q rest

/-- R97: a request from its acceptance to the judgement of its first attempt. -/
theorem runsTo_firstAttempt {a : Attempt} (hw : s.cfg.wf = true) (hf : s.fsm = .idle) (hr : p.rst = false)
    (hv : p.reqValid = true) (hc : requestCommand (decodeReq p.reqOp) = some c) (hne : c ≠ .softReset)
    (hfit : a.Fits s.cfg c) (hs : s.script = p :: (a.script ++ rest))
    (hend : arbitrateEdge (decide (decodeReq p.reqOp = .softReset)) (some c)
      (s.firstAnswered p c a.readDone rest) = .next u) :
    RunsTo (1 + a.script.length) s u (attemptEvents s.cfg p.devAddr c) :=
  (runsTo_accept hw hf hr hv hc hs).trans
    (runsTo_attempt (s := s.accepted p c) hw rfl (ec_accepted hc) hne hfit (by simp [hs]) hend)

/-- R90: the three measurements are judged alike, and each reads 6 bytes. -/
theorem measurement_command {i : Instr} (hi : isMeasurement i) (hc : requestCommand i = some c) :
    c ≠ .softReset ∧ respLen c = 6 ∧ ∀ b s, arbitrateEdge b (some c) s = .next (arbitrateMeasurement s) := by
  obtain rfl | rfl | rfl := hi <;> cases hc <;> exact ⟨by decide, rfl, fun _ _ => rfl⟩

/-- Settles O30: one attempt, judged by the two cases of the verdict on the answer. -/
theorem measurementRequestRuns : Obligations.MeasurementRequestRuns := by
  intro i c s p a rest hi hc hw hf hr hv hop hfit hs
  obtain ⟨hne, hlen, hjudge⟩ := measurement_command hi hc
  have hreq : decodeReq p.reqOp = i := by
    rw [hop]
    exact decodeReq_encodeReq i (by obtain rfl | rfl | rfl := hi <;> rfl)
  have hrun := runsTo_firstAttempt hw hf hr hv (hreq ▸ hc) hne hfit hs (hjudge _ _)
  refine ⟨_, hrun.run, hrun.trace, ?_⟩
  obtain ⟨hverdict, hresult⟩ | ⟨hverdict, hresult⟩ :=
    arbitrateMeasurement_cases (s.firstAnswered p c a.readDone rest)
  · rw [verdict_answeredBy hlen] at hverdict
    simp [hresult, hverdict, hne, answeredBy_word hlen (le_rdLen_of_answerValid hverdict)]
  · rw [verdict_answeredBy hlen] at hverdict
    simp [hresult, hverdict, hne]

/-- Settles O31: one attempt, judged by the two cases of the verdict on the answer. -/
theorem serialRequestRuns : Obligations.SerialRequestRuns := by
  intro s p a rest hw hf hr hv hop hfit hs
  have hc : requestCommand (decodeReq p.reqOp) = some .readSerial := by rw [hop]; rfl
  have hlen : respLen .readSerial = 6 := rfl
  have hrun := runsTo_firstAttempt hw hf hr hv hc (by decide) hfit hs rfl
  refine ⟨_, hrun.run, hrun.trace, ?_⟩
  obtain ⟨hverdict, hresult⟩ | ⟨hverdict, hresult⟩ :=
    arbitrateSerial_cases (s.firstAnswered p .readSerial a.readDone rest)
  · rw [verdict_answeredBy hlen] at hverdict
    simp [hresult, hverdict, RBuf.serial, answeredBy_word hlen (le_rdLen_of_answerValid hverdict)]
  · rw [verdict_answeredBy hlen] at hverdict
    simp [hresult, hverdict]

end Sys2Proof.Machine
end

section
/-! The status read, with up to 10 attempts: READ_STATUS, and the status phase of SOFT_RESET (R80, R91, R96, R103, R104). -/

namespace Sys2Proof.Machine

open Sys2Proof.Safety

variable {s t u : State} {rest : List Pins}

/-- R91: a status attempt that fails before the 10th is retried. -/
theorem arbitrateStatus_retry (b : Bool) (hv : verdict 1 s = false) (ha : s.attempt ≠ nAttempts) :
    arbitrateStatus b s = s.retry := by
  simp [arbitrateStatus, hv, ha]

/-- R80, R91: a status attempt that validates or is the 10th ends the request. -/
theorem arbitrateStatus_end (b : Bool) (h : verdict 1 s = true ∨ s.attempt = nAttempts) :
    arbitrateStatus b s = (resetResult b (s.writeStatus (s.rbuf.word 0))).finish
      (if verdict 1 s then .ok else .retryExhausted) := by
  rw [arbitrateStatus, if_pos (by simpa using h)]

/-- `t` is about to write the command of the `n`-th attempt after that of `s`: what the failed attempts between keep. -/
structure LaterAttempt (n : Nat) (s t : State) : Prop where
  fsm        : t.fsm = .cmdWrite
  attempt    : t.attempt = s.attempt + BitVec.ofNat 4 n
  curOp      : t.curOp = s.curOp
  phase      : t.phase = s.phase
  curAddr    : t.curAddr = s.curAddr
  resTRaw    : t.resTRaw = s.resTRaw
  resRhRaw   : t.resRhRaw = s.resRhRaw
  resSerial  : t.resSerial = s.resSerial
  resResetOk : t.resResetOk = s.resResetOk
  cfg        : t.cfg = s.cfg

theorem LaterAttempt.refl (hf : s.fsm = .cmdWrite) : LaterAttempt 0 s s :=
  ⟨hf, (BitVec.add_zero _).symm, rfl, rfl, rfl, rfl, rfl, rfl, rfl, rfl⟩

theorem LaterAttempt.trans {m n : Nat} (h : LaterAttempt m s t) (h' : LaterAttempt n t u) : LaterAttempt (m + n) s u where
  fsm        := h'.fsm
  attempt    := by rw [h'.attempt, h.attempt, BitVec.add_assoc, BitVec.ofNat_add]
  curOp      := h'.curOp.trans h.curOp
  phase      := h'.phase.trans h.phase
  curAddr    := h'.curAddr.trans h.curAddr
  resTRaw    := h'.resTRaw.trans h.resTRaw
  resRhRaw   := h'.resRhRaw.trans h.resRhRaw
  resSerial  := h'.resSerial.trans h.resSerial
  resResetOk := h'.resResetOk.trans h.resResetOk
  cfg        := h'.cfg.trans h.cfg

/-- R91: one failed status attempt before the 10th. -/
theorem runsTo_failedAttempt {a : Attempt} (hw : s.cfg.wf = true) (hf : s.fsm = .cmdWrite) (hp : s.phase = true)
    (ha : s.attempt.toNat < 10) (hfit : a.Fits s.cfg .readStatus) (hbad : answerValid 1 a.readDone = false)
    (hs : s.script = a.script ++ rest) :
    ∃ t, RunsTo a.script.length s t (attemptEvents s.cfg s.curAddr .readStatus) ∧ LaterAttempt 1 s t ∧
      t.attempt.toNat = s.attempt.toNat + 1 ∧ t.script = rest := by
  have hmore : s.attempt ≠ nAttempts := fun h => by simp [h, nAttempts] at ha
  have hverdict : verdict 1 ((s.loadTimer 0).answeredBy .readStatus a.readDone rest) = false :=
    (verdict_answeredBy (n := 1) rfl).trans hbad
  have hretry := arbitrateStatus_retry (decide (decodeReq s.curOp = .softReset)) hverdict hmore
  exact ⟨_, runsTo_attempt hw hf (ec_readStatus (.inl hp)) (by decide) hfit hs (congrArg Host.Outcome.next hretry),
    ⟨rfl, rfl, rfl, rfl, rfl, rfl, rfl, rfl, rfl, rfl⟩, toNat_retry_attempt ha, rfl⟩

/-- R91, R96: failed status attempts, each of them before the 10th. -/
theorem runsTo_failedAttempts (failed : List Attempt) (hw : s.cfg.wf = true) (hf : s.fsm = .cmdWrite)
    (hp : s.phase = true) (ha : s.attempt.toNat + failed.length ≤ 10)
    (hfail : ∀ a ∈ failed, a.Fits s.cfg .readStatus ∧ answerValid 1 a.readDone = false)
    (hs : s.script = failed.flatMap Attempt.script ++ rest) :
    ∃ t, RunsTo (failed.flatMap Attempt.script).length s t
        (List.replicate failed.length (attemptEvents s.cfg s.curAddr .readStatus)).flatten ∧
      LaterAttempt failed.length s t ∧ t.script = rest := by
  induction failed generalizing s with
  | nil => exact ⟨s, RunsTo.refl s, LaterAttempt.refl hf, hs⟩
  | cons a failed ih =>
    rw [List.length_cons] at ha
    rw [List.flatMap_cons, List.append_assoc] at hs
    obtain ⟨⟨hfit, hbad⟩, hfail⟩ := List.forall_mem_cons.1 hfail
    obtain ⟨u, hrun, hlater, hcount, hu⟩ := runsTo_failedAttempt hw hf hp (by omega) hfit hbad hs
    obtain ⟨t, hruns, hlater', ht⟩ := ih (by rwa [hlater.cfg]) hlater.fsm (hlater.phase.trans hp) (by omega)
      (by rwa [hlater.cfg]) hu
    rw [hlater.cfg, hlater.curAddr] at hruns
    refine ⟨t, ?_, ?_, ht⟩
    · simpa [List.replicate_succ] using hrun.trans hruns
    · simpa [Nat.add_comm] using hlater.trans hlater'

/-- What a status read that began in the state `s` leaves, when it ended with the `n`-th attempt, answered by `q`. -/
structure StatusReadEnds (s : State) (n : Nat) (q : Pins) (t : State) : Prop where
  fsm         : t.fsm = .complete
  resValid    : t.resValid = true
  resAttempts : t.resAttempts = BitVec.ofNat 4 n
  resCode     : t.resCode = if answerValid 1 q then .ok else .retryExhausted
  status_high : 1 ≤ q.rdLen.toNat → t.resStatus.extractLsb' 8 8 = q.rdByte 0
  status_low  : 2 ≤ q.rdLen.toNat → t.resStatus.extractLsb' 0 8 = q.rdByte 1
  resResetOk  : t.resResetOk =
    if decodeReq s.curOp = .softReset then !cmdStatus s.cfg.layout t.resStatus else s.resResetOk
  resTRaw     : t.resTRaw = s.resTRaw
  resRhRaw    : t.resRhRaw = s.resRhRaw
  resSerial   : t.resSerial = s.resSerial
  cfg         : t.cfg = s.cfg

/-- R80, R104: the last attempt of a status read. -/
theorem statusReadEnds_of_last {n : Nat} {q : Pins} (hlater : LaterAttempt n s u) (ha : s.attempt = 1#4)
    (hend : answerValid 1 q = true ∨ n = 9) :
    StatusReadEnds s (n + 1) q (arbitrateStatus (decide (decodeReq s.curOp = .softReset))
      ((u.loadTimer 0).answeredBy .readStatus q rest)) := by
  have hverdict : verdict 1 ((u.loadTimer 0).answeredBy .readStatus q rest) = answerValid 1 q :=
    verdict_answeredBy (n := 1) rfl
  have hattempt : u.attempt = BitVec.ofNat 4 (n + 1) := by
    rw [hlater.attempt, ha, Nat.add_comm, BitVec.ofNat_add]
  have hlast : verdict 1 ((u.loadTimer 0).answeredBy .readStatus q rest) = true ∨ u.attempt = nAttempts :=
    hend.imp hverdict.trans fun h9 => by rw [hattempt, h9]; rfl
  rw [arbitrateStatus_end _ hlast, hverdict]
  obtain ⟨hhigh, hlow⟩ := answeredBy_word_zero_bytes (s := u.loadTimer 0) (c := .readStatus) (p := q) (rest := rest)
    (by decide)
  constructor
  case status_high => simpa using hhigh
  case status_low => simpa using hlow
  case resResetOk => simp [hlater.cfg, hlater.resResetOk]
  all_goals simp [hattempt, hlater.resTRaw, hlater.resRhRaw, hlater.resSerial, hlater.cfg]

/-- R96, R103: a status read from its first attempt to the last. -/
theorem runsTo_statusRead {failed : List Attempt} {last : Attempt} (hw : s.cfg.wf = true) (hf : s.fsm = .cmdWrite)
    (hp : s.phase = true) (ha : s.attempt = 1#4)
    (hfail : ∀ a ∈ failed, a.Fits s.cfg .readStatus ∧ answerValid 1 a.readDone = false)
    (hfit : last.Fits s.cfg .readStatus) (hlen : failed.length ≤ 9)
    (hend : answerValid 1 last.readDone = true ∨ failed.length = 9)
    (hs : s.script = failed.flatMap Attempt.script ++ (last.script ++ rest)) :
    ∃ t, RunsTo ((failed.flatMap Attempt.script).length + last.script.length) s t
        (List.replicate (failed.length + 1) (attemptEvents s.cfg s.curAddr .readStatus)).flatten ∧
      StatusReadEnds s (failed.length + 1) last.readDone t ∧ t.script = rest := by
  have hfirst : s.attempt.toNat + failed.length ≤ 10 := by rw [ha]; simp; omega
  obtain ⟨u, hruns, hlater, hu⟩ := runsTo_failedAttempts failed hw hf hp hfirst hfail hs
  have hrun := runsTo_attempt (s := u) (by rwa [hlater.cfg]) hlater.fsm (ec_readStatus (.inl (hlater.phase.trans hp)))
    (by decide) (by rwa [hlater.cfg]) hu rfl
  rw [hlater.cfg, hlater.curAddr, hlater.curOp] at hrun
  obtain ⟨_, hscript, _⟩ := arbitrateEdge_frame (ec := some .readStatus) (s := (u.loadTimer 0).answeredBy _ _ rest) rfl
  exact ⟨_, by simpa [List.replicate_succ'] using hruns.trans hrun, statusReadEnds_of_last hlater ha hend, hscript⟩

/-- Settles O32: the acceptance, and then a status read. -/
theorem statusRequestRetriesUpToTen : Obligations.StatusRequestRetriesUpToTen := by
  intro s p failed last rest hw hf hr hv hop hfail hfit hlen hend hs
  have hreq : decodeReq p.reqOp = .readStatus := by rw [hop]; rfl
  have haccept := runsTo_accept (c := .readStatus) hw hf hr hv (by rw [hreq]; rfl) hs
  obtain ⟨t, hruns, hends, ht⟩ := runsTo_statusRead (s := s.accepted p .readStatus) hw rfl rfl rfl hfail hfit hlen hend
    (congrArg List.tail hs)
  have hrun := haccept.trans hruns
  have hreset : t.resResetOk = s.resResetOk := by simpa [hreq] using hends.resResetOk
  exact ⟨t, _, (Nat.add_assoc _ _ _).symm, hrun.run, hrun.trace, hends.fsm, hends.resValid, hends.resAttempts, ht,
    hends.resCode, hends.status_high, hends.status_low, hends.resTRaw, hends.resRhRaw, hends.resSerial, hreset, hends.cfg⟩

/-- The state at the edge that ends the settle of the reset command, of a SOFT_RESET accepted on the pins `p`. -/
abbrev State.resetWritten (s : State) (p : Pins) (rest : List Pins) : State :=
  ((s.accepted p .softReset).loadTimer 0).withScript rest

/-- R88, R104: a SOFT_RESET from its acceptance to the first attempt of its status read. -/
theorem runsTo_resetWritten {p : Pins} {w : WritePart} (hw : s.cfg.wf = true) (hf : s.fsm = .idle) (hr : p.rst = false)
    (hv : p.reqValid = true) (hreq : decodeReq p.reqOp = .softReset) (hfit : w.Fits s.cfg .softReset)
    (hs : s.script = p :: (w.script ++ rest)) :
    RunsTo (1 + w.script.length) s ((s.resetWritten p rest).beginAttempts true 1#4)
      [.write p.devAddr (wireBytes (commandFrame s.cfg .softReset))] := by
  have hc : requestCommand (decodeReq p.reqOp) = some .softReset := by rw [hreq]; rfl
  exact (runsTo_accept hw hf hr hv hc hs).trans
    (runsTo_writePart (s := s.accepted p .softReset) hw rfl (ec_accepted hc) hfit (by simp [hs]) (settleEdge_softReset rfl))

/-- Settles O33: the reset command, and then a status read. -/
theorem softResetRequestRuns : Obligations.SoftResetRequestRuns := by
  intro s p w failed last rest hw hf hr hv hop hreset hfail hfit hlen hend hs
  have hreq : decodeReq p.reqOp = .softReset := by rw [hop]; rfl
  have hwritten := runsTo_resetWritten hw hf hr hv hreq hreset hs
  obtain ⟨t, hruns, hends, ht⟩ := runsTo_statusRead (rest := rest) (s := (s.resetWritten p _).beginAttempts true 1#4)
    hw rfl rfl rfl hfail hfit hlen hend rfl
  have hrun := hwritten.trans hruns
  have hok : t.resResetOk = !cmdStatus s.cfg.layout t.resStatus := by simpa [hreq] using hends.resResetOk
  exact ⟨t, _, (Nat.add_assoc _ _ _).symm, hrun.run, hrun.trace, hends.fsm, hends.resValid, hends.resAttempts, ht,
    hends.resCode, hends.status_high, hends.status_low, hok, hends.resTRaw, hends.resRhRaw, hends.resSerial, hends.cfg⟩

end Sys2Proof.Machine
end

section
/-! When a status layout is well-formed (R108), in the terms of its bits, and the refusal of any other (log 19). -/

namespace Sys2Proof

/-- The range holds the bits from `lo` to `hi`. -/
theorem BitRange.covers_iff {r : BitRange} {n : Nat} : r.covers n = true ↔ r.lo ≤ n ∧ n ≤ r.hi := by
  simp [BitRange.covers]

/-- A list's images are distinct exactly when entries at different places have different images. -/
theorem nodup_map_iff_getElem? {α β : Type} {f : α → β} {xs : List α} : (xs.map f).Nodup ↔
    ∀ (j k : Nat) (a b : α), xs[j]? = some a → xs[k]? = some b → j ≠ k → f a ≠ f b := by
  constructor
  · intro hnodup j k a b hj hk hne heq
    have hlt : j < (xs.map f).length := by
      rw [List.length_map]
      exact (List.getElem?_eq_some_iff.1 hj).1
    exact hne ((List.getElem?_inj hlt hnodup).1 (by simp [hj, hk, heq]))
  · intro h
    refine List.nodup_iff_getElem?_ne_getElem?.2 fun j k hjk hk heq => ?_
    rw [List.length_map] at hk
    refine h j k xs[j] xs[k] (List.getElem?_eq_getElem _) (List.getElem?_eq_getElem _) (by omega) ?_
    simpa [List.getElem?_eq_getElem hk, List.getElem?_eq_getElem (hjk.trans hk)] using heq

namespace StatusLayout

variable {l : StatusLayout}

/-- R108: each named field is one bit of the word. -/
theorem namedOneBit_iff : l.namedOneBit = true ↔ ∀ r ∈ l.named, r.hi = r.lo ∧ r.hi ≤ 15 := by
  rw [namedOneBit, List.all_eq_true]
  refine forall₂_congr fun r _ => ?_
  simp only [BitRange.oneBit, BitRange.inWord, Bool.and_eq_true, beq_iff_eq, decide_eq_true_eq]
  omega

/-- R108: the named fields stand at different bits. -/
theorem namedDisjoint_iff : l.namedDisjoint = true ↔
    ∀ (j k : Nat) (a b : BitRange), l.named[j]? = some a → l.named[k]? = some b → j ≠ k → a.lo ≠ b.lo := by
  rw [namedDisjoint, decide_eq_true_iff, nodup_map_iff_getElem?]

/-- R108, log 24: the reserved ranges are ranges of the word. -/
theorem reservedInWord_iff : l.reservedInWord = true ↔ ∀ r ∈ l.reserved, r.lo ≤ r.hi ∧ r.hi ≤ 15 := by
  simp [reservedInWord, BitRange.inWord]

/-- R108: a bit of the word is reserved exactly when no named field holds it. -/
theorem reservedExact_iff : l.reservedExact = true ↔ ∀ n, n ≤ 15 →
    ((∃ r ∈ l.reserved, r.lo ≤ n ∧ n ≤ r.hi) ↔ ¬ ∃ r ∈ l.named, r.lo ≤ n ∧ n ≤ r.hi) := by
  rw [reservedExact, List.all_eq_true]
  refine forall_congr' fun n => imp_congr (by simp; omega) ?_
  rw [beq_iff_eq, Bool.eq_iff_iff, Bool.not_eq_true', ← Bool.not_eq_true, List.any_eq_true, List.any_eq_true]
  simp only [BitRange.covers_iff]

/-- R108: the four conditions on a well-formed layout. -/
theorem wf_iff : l.wf = true ↔
    l.namedOneBit = true ∧ l.namedDisjoint = true ∧ l.reservedInWord = true ∧ l.reservedExact = true := by
  simp [wf, and_assoc]

/-- R108: in a well-formed layout no bit belongs to two named fields. -/
theorem not_shared_of_wf (hw : l.wf = true) {j k n : Nat} {a b : BitRange} (hne : j ≠ k) (hj : l.named[j]? = some a)
    (hk : l.named[k]? = some b) (ha : a.lo ≤ n ∧ n ≤ a.hi) : ¬ (b.lo ≤ n ∧ n ≤ b.hi) := by
  intro hb
  obtain ⟨hone, hdisjoint, -, -⟩ := wf_iff.1 hw
  have hahi := (namedOneBit_iff.1 hone a (List.mem_of_getElem? hj)).1
  have hbhi := (namedOneBit_iff.1 hone b (List.mem_of_getElem? hk)).1
  exact namedDisjoint_iff.1 hdisjoint j k a b hj hk hne (by omega)

end StatusLayout

namespace Machine

/-- Settles O7: a step refuses exactly the ill-formed configurations, and the layout enters well-formedness by R108. -/
theorem illFormedStatusLayoutRefused : Obligations.IllFormedStatusLayoutRefused := by
  constructor
  · intro s hfault
    refine step_refused_iff.2 fun hw => ?_
    obtain ⟨-, hlayout, -⟩ := Params.wf_iff.1 hw
    obtain ⟨hone, -, -, hexact⟩ := StatusLayout.wf_iff.1 hlayout
    obtain ⟨r, hr, hwide⟩ | ⟨j, k, a, b, n, hne, hj, hk, hal, hah, hb⟩ | ⟨n, hn, hsplit⟩ := hfault
    · have hbit := StatusLayout.namedOneBit_iff.1 hone r hr
      omega
    · exact StatusLayout.not_shared_of_wf hlayout hne hj hk ⟨hal, hah⟩ hb
    · exact hsplit (StatusLayout.reservedExact_iff.1 hexact n hn)
  · intro s hcodes hticks hone hdisjoint hin hexact hrefused
    have hlayout : s.cfg.layout.wf = true := StatusLayout.wf_iff.2
      ⟨StatusLayout.namedOneBit_iff.2 hone, StatusLayout.namedDisjoint_iff.2 hdisjoint,
        StatusLayout.reservedInWord_iff.2 hin, StatusLayout.reservedExact_iff.2 hexact⟩
    exact step_refused_iff.1 hrefused (Params.wf_iff.2 ⟨hcodes, hlayout, hticks⟩)

end Machine

end Sys2Proof
end

section
/-! What the accessor of a status field reads (R109), and the status outputs (R110 to R117). -/

namespace Sys2Proof.Machine

/-- R109: shift and mask leave a field the bits `hi:lo` of the word, for every range. -/
theorem getLsbD_readField (r : BitRange) (S : Word) (k : Nat) :
    (readField r S).getLsbD k = (decide (k < r.width) && S.getLsbD (r.lo + k)) := by
  rw [readField, BitVec.getLsbD_and, BitVec.getLsbD_ushiftRight, Bool.and_comm]
  by_cases h16 : k < 16
  · rw [getLsbD_mask _ k h16]
  · simp [BitVec.getLsbD_of_ge, show 16 ≤ r.lo + k by omega]

/-- R109: a field of one bit reads as that bit. -/
theorem readField_of_oneBit {r : BitRange} (h : r.hi = r.lo) (S : Word) :
    readField r S = (BitVec.ofBool (S.getLsbD r.lo)).setWidth 16 := by
  apply BitVec.eq_of_getLsbD_eq
  intro k _
  rw [getLsbD_readField]
  cases k with
  | zero => simp
  | succ k => simp [h]

/-- R109: a one-bit field is set exactly when its bit is. -/
theorem flag_of_oneBit {r : BitRange} (h : r.hi = r.lo) (S : Word) : flag r S = S.getLsbD r.lo := by
  rw [flag, readField_of_oneBit h]
  cases S.getLsbD r.lo <;> rfl

/-- Settles O38: the bits of a field stand in their places in every layout; a named field has one by R108. -/
theorem statusFieldsAreBitRanges : Obligations.StatusFieldsAreBitRanges := by
  intro l S hw
  obtain ⟨hone, -, -, -⟩ := StatusLayout.wf_iff.1 hw
  refine ⟨fun r hr => flag_of_oneBit (StatusLayout.namedOneBit_iff.1 hone r hr).1 S, fun r _ k => ?_⟩
  simp only [getLsbD_readField, Nat.lt_succ_iff]

/-- Settles O39: the named outputs are one bit each, and a reserved one shows the bits of its range. -/
theorem defaultLayoutOutputs : Obligations.DefaultLayoutOutputs := by
  intro s h
  simp only [State.outputs, decodeStatus, cmdStatus, h, StatusLayout.sht3x, flag_of_oneBit,
    readReserved_eq, List.map_cons, List.map_nil]
  rfl

end Sys2Proof.Machine
end

section
/-! The host's reference conversions (R119 to R121): affine maps of the raw word with positive slopes (R122). -/

namespace Sys2Proof.Machine

/-- R122: the slope 175/65535 is positive. -/
theorem temperatureC_lt_of_lt {a b : Word} (h : a < b) : temperatureC a < temperatureC b := by
  have hraw : (a.toNat : ℚ) < b.toNat := Nat.cast_lt.2 (BitVec.lt_def.1 h)
  unfold temperatureC
  gcongr

/-- R122: the slope 100/65535 is positive. -/
theorem humidityPct_lt_of_lt {a b : Word} (h : a < b) : humidityPct a < humidityPct b := by
  have hraw : (a.toNat : ℚ) < b.toNat := Nat.cast_lt.2 (BitVec.lt_def.1 h)
  unfold humidityPct
  gcongr

/-- R119: the offset is all that is left of the least raw word. -/
theorem temperatureC_zero : temperatureC 0x0000#16 = -45 := by
  simp [temperatureC]

/-- R119: the greatest raw word is the divisor of the formula, so the whole span 175 is added to the offset. -/
theorem temperatureC_max : temperatureC 0xFFFF#16 = 130 := by
  norm_num [temperatureC]

/-- R120: the formula has no offset. -/
theorem humidityPct_zero : humidityPct 0x0000#16 = 0 := by
  simp [humidityPct]

/-- R120: the greatest raw word is the divisor of the formula. -/
theorem humidityPct_max : humidityPct 0xFFFF#16 = 100 := by
  norm_num [humidityPct]

/-- Settles O42: both slopes are positive, and R121 takes the two ends of the Celsius range to those of the Fahrenheit one. -/
theorem referenceConversionsIncrease : Obligations.ReferenceConversionsIncrease := by
  refine ⟨fun _ _ h => ⟨temperatureC_lt_of_lt h, humidityPct_lt_of_lt h⟩, temperatureC_zero, temperatureC_max,
    humidityPct_zero, humidityPct_max, ?_, ?_⟩
  · rw [temperatureC_zero]
    norm_num [temperatureF]
  · rw [temperatureC_max]
    norm_num [temperatureF]

end Sys2Proof.Machine
end

section
/-! The block raises no exception and takes no trap (R123): every edge from a state that meets the invariant has a next
state. -/

namespace Sys2Proof.Safety

open Sys2Proof.Machine

variable {s : State}

/-- R85, R86: in `IDLE` no pins stop the block, and no illegal code does. -/
theorem step_idle_answers (hw : s.cfg.wf = true) (hr : s.pins.rst = false) (hf : s.fsm = .idle) :
    ∃ t, step s = .next t := by
  cases hv : s.pins.reqValid with
  | false => exact ⟨_, step_idle_wait hw hr hf hv⟩
  | true => exact ⟨_, step_idle_accept hw hr hf hv⟩

/-- R93: in `COMPLETE` no pins stop the block. -/
theorem step_complete_answers (hw : s.cfg.wf = true) (hr : s.pins.rst = false) (hf : s.fsm = .complete) :
    ∃ t, step s = .next t := by
  cases ha : s.pins.rspAck with
  | false => exact ⟨_, step_complete_wait hw hr hf ha⟩
  | true => exact ⟨_, step_complete_ack hw hr hf ha⟩

/-- Settles O10: a reset edge, `IDLE` and `COMPLETE` need only the well-formed configuration; a request in progress also has a
command, and one with an arbiter rule in `ARBITRATE` (`Inv.inProgress`). -/
theorem invariantStatesAlwaysStep : Obligations.InvariantStatesAlwaysStep := by
  intro s hI
  have hw := hI.params_wf
  cases hr : s.pins.rst with
  | true => exact ⟨_, step_rst hw hr⟩
  | false =>
    cases hf : s.fsm with
    | idle => exact step_idle_answers hw hr hf
    | complete => exact step_complete_answers hw hr hf
    | cmdWrite | settle | respRead | arbitrate =>
      exact (hI.inProgress (by simp [busy, hf])).step_answers hr

end Sys2Proof.Safety
end

section
/-! The reset edge (R36, R138), and the invariant in the state after it. -/

namespace Sys2Proof.Machine

/-- R36: every byte of the buffer is 0 after a reset. -/
theorem blockReset_rbuf_get (s : State) (i : Fin 6) : s.blockReset.rbuf.get i = 0#8 := by
  rw [blockReset_rbuf]
  revert i
  decide

/-- Settles O5: the edge makes `State.blockReset` of any state, whose registers are those of R36. -/
theorem resetEdgeSetsEveryRegister : Obligations.ResetEdgeSetsEveryRegister := by
  intro s hw hr
  exact ⟨_, step_rst hw hr, ⟨rfl, rfl, rfl, rfl, rfl, rfl, rfl, blockReset_rbuf_get s, rfl, rfl, rfl, rfl, rfl, rfl, rfl,
    rfl⟩, rfl, rfl, rfl, rfl⟩

end Sys2Proof.Machine

namespace Sys2Proof.Safety

open Sys2Proof.Machine

/-- R36, R138: after a reset the block waits in `IDLE` with every bounded register at 0. -/
theorem inv_blockReset {s : State} (hw : s.cfg.wf = true) : Inv s.blockReset where
  params_wf          := hw
  valid_iff_complete := by simp
  attempt_le         := by simp
  resAttempts_le     := by simp
  rlen_le            := by simp
  timer_le           := by simp
  busy_legal         := by simp [busy]
  phase_status       := by simp [busy]
  phase_one          := by simp [busy]
  attempt_zero       := by simp [busy]
  attempt_single     := by simp [busy]
  read_not_reset     := by simp
  settle_le          := by simp
  delivered_le       := by simp
  completed          := by simp

/-- Settles O8: the state after reset is what a reset makes of itself, and its configuration is well-formed. -/
theorem resetStateMeetsInvariant : Obligations.ResetStateMeetsInvariant :=
  inv_blockReset (s := State.reset) (by decide)

end Sys2Proof.Safety
end

section
/-! The bounds of the registers (R17 to R19) and the agreement of `RES_VALID` with `COMPLETE` (R21), after every edge without
a reset. -/

namespace Sys2Proof.Safety

open Sys2Proof.Machine

variable {s u : State} {c : Cmd}

/-- R78: a measurement's verdict leaves `ATTEMPT` and `TIMER` as they are, and is a result. -/
@[simp] theorem arbitrateMeasurement_counters (s : State) :
    (arbitrateMeasurement s).attempt = s.attempt ∧ (arbitrateMeasurement s).timer = s.timer ∧
      (arbitrateMeasurement s).resValid = true := by
  obtain ⟨_, h⟩ | ⟨_, h⟩ := arbitrateMeasurement_cases s <;> simp [h]

/-- R79: so does a serial number's. -/
@[simp] theorem arbitrateSerial_counters (s : State) :
    (arbitrateSerial s).attempt = s.attempt ∧ (arbitrateSerial s).timer = s.timer ∧
      (arbitrateSerial s).resValid = true := by
  obtain ⟨_, h⟩ | ⟨_, h⟩ := arbitrateSerial_cases s <;> simp [h]

@[simp] theorem arbitrateStatus_timer (b : Bool) (s : State) : (arbitrateStatus b s).timer = s.timer := by
  obtain ⟨_, h⟩ | ⟨_, _, h⟩ | ⟨_, _, h⟩ := arbitrateStatus_cases b s <;> simp [h]

/-- R91: a status attempt leads to `COMPLETE`, or by a retry to `CMD_WRITE`, and to no other state of a request. -/
@[simp] theorem arbitrateStatus_fsm_ne (b : Bool) (s : State) :
    (arbitrateStatus b s).fsm ≠ .settle ∧ (arbitrateStatus b s).fsm ≠ .respRead ∧
      (arbitrateStatus b s).fsm ≠ .arbitrate := by
  obtain h | ⟨_, h⟩ := arbitrateStatus_complete_or_retry b s <;> simp [h]

/-- R21: a block that enters `COMPLETE` sets `RES_VALID`, and one that stays there keeps it. -/
theorem Inv.resValid_of_complete (hI : Inv s) (h : Transition s u) (hu : u.fsm = .complete) : u.resValid = true := by
  cases h with
  | completeWait => exact hI.valid_iff_complete.2 hu
  | acceptIllegal => rfl
  | judgeMeasurement | judgeSerial => simp
  | judgeStatus =>
    obtain ⟨_, hm⟩ | ⟨_, _, hm⟩ | ⟨_, _, hm⟩ := arbitrateStatus_cases (decide (decodeReq s.curOp = .softReset)) s
    · simp [hm]
    · simp [hm]
    · simp [hm] at hu
  | idleWait _ hf | writeWait _ hf | settleTick _ hf | readWait _ hf => simp [hf] at hu
  | _ => simp at hu

/-- R17: an attempt that is not the 10th is before it. -/
theorem Inv.attempt_lt (hI : Inv s) (ha : s.attempt ≠ nAttempts) : s.attempt.toNat < 10 :=
  lt_of_le_of_ne hI.attempt_le fun heq => ha (BitVec.eq_of_toNat_eq heq)

/-- R17: a first attempt is the 0th or the 1st, and only an attempt before the 10th is retried. -/
theorem Inv.attempt_le_transition (hI : Inv s) (h : Transition s u) : u.attempt.toNat ≤ 10 := by
  have hle := hI.attempt_le
  cases h with
  | accept => simp only [beginAttempts_attempt]; split <;> simp
  | judgeStatus =>
    obtain ⟨_, hm⟩ | ⟨_, _, hm⟩ | ⟨_, ha, hm⟩ := arbitrateStatus_cases (decide (decodeReq s.curOp = .softReset)) s
    · simpa [hm] using hle
    · simpa [hm] using hle
    · have hlt := hI.attempt_lt ha
      rw [hm]
      exact (toNat_retry_attempt hlt).trans_le hlt
  | reset | acceptIllegal | settleReset => simp
  | _ => simpa using hle

/-- R89: the delivered length is at most the count requested. -/
theorem rlen_storeResponse_le (s : State) (c : Cmd) : (s.storeResponse (respLen c)).rlen.toNat ≤ respLen c := by
  rw [storeResponse_rlen, deliveredLen_toNat]
  exact s.pins.deliveredLen_le _

/-- R19. -/
theorem Inv.rlen_le_transition (hI : Inv s) (h : Transition s u) : u.rlen.toNat ≤ 6 := by
  cases h with
  | reset => simp
  | readDone c => exact (rlen_storeResponse_le s c).trans (respLen_le c)
  | _ => simpa using hI.rlen_le

/-- R18: only a command write loads the timer, with its settle ticks. -/
theorem Inv.timer_le_transition (hI : Inv s) (h : Transition s u) : u.timer ≤ settleMsMeas * u.cfg.ticksPerMs := by
  have hle := hI.timer_le
  cases h with
  | reset => simp
  | writeDone c => exact settleTicks_le s.cfg c
  | settleTick => exact (Nat.sub_le _ _).trans hle
  | _ => simpa using hle

end Sys2Proof.Safety
end

section
/-! A request in progress, after every edge: the attempt it is in (R17, R86, R97), and what holds in `SETTLE`, `RESP_READ` and
`ARBITRATE` (R87 to R90). -/

namespace Sys2Proof.Safety

open Sys2Proof.Machine

variable {s u : State} {c : Cmd}

/-- R17, R86, R97: of the requests in progress only a SOFT_RESET is ever in the attempt 0, and one that reads no status is in
its first attempt. -/
def AttemptFits (s : State) : Prop :=
  busy s → (decodeReq s.curOp ≠ .softReset → s.attempt ≠ 0#4) ∧ (¬ readsStatus (decodeReq s.curOp) → s.attempt = 1#4)

theorem Inv.attemptFits (hI : Inv s) : AttemptFits s := fun hb =>
  ⟨fun hreq h0 => hreq ((hI.attempt_zero hb).1 h0).1, hI.attempt_single hb⟩

/-- R86: an accepted request starts with the attempt of its kind. -/
theorem attemptFits_accept {op : ReqCode} (hc : requestCommand (decodeReq op) = some c) (s : State) (addr : DevAddr) :
    AttemptFits ((s.latch op addr).beginAttempts (c == .readStatus) (if c = .softReset then 0#4 else 1#4)) := by
  intro _
  have hreq := requestCommand_eq_some hc
  by_cases hreset : c = .softReset
  · subst hreset
    simp [hreq]
  · simp [hreset]

/-- R91: only a request that reads the status retries, and never to the attempt 0. -/
theorem Inv.attemptFits_retry (hI : Inv s) (hb : busy s) (hc : s.ec = some .readStatus) (ha : s.attempt ≠ nAttempts) :
    AttemptFits s.retry := by
  have hnext := toNat_retry_attempt (hI.attempt_lt ha)
  refine fun _ => ⟨fun _ h0 => ?_, fun hn => absurd (hI.readsStatus_of_ec hb hc) hn⟩
  rw [h0] at hnext
  simp at hnext

theorem Inv.attemptFits_transition (hI : Inv s) (h : Transition s u) : AttemptFits u := by
  cases h with
  | accept _ _ _ _ hc => exact attemptFits_accept hc s _
  | settleReset => exact fun _ => ⟨by simp, by simp⟩
  | judgeStatus _ hf hc =>
    obtain hcomplete | ⟨ha, hretry⟩ := arbitrateStatus_complete_or_retry (decide (decodeReq s.curOp = .softReset)) s
    · exact fun hb => absurd hcomplete hb.2
    · rw [hretry]
      exact hI.attemptFits_retry (by simp [busy, hf]) hc ha
  | idleWait | writeWait | readWait | completeWait => exact hI.attemptFits
  | writeDone _ _ hf | settleTick _ hf | settleRead _ _ hf | readDone _ _ hf =>
    exact fun _ => hI.attemptFits (by simp [busy, hf])
  | reset | acceptIllegal | judgeMeasurement | judgeSerial | completeAck => simp [AttemptFits, busy]

/-- R17: the attempt 0 is the reset command of a SOFT_RESET, with `PHASE` = 0. -/
theorem attempt_zero_iff (hp : PhaseFits u) (ha : AttemptFits u) (hb : busy u) :
    u.attempt = 0#4 ↔ decodeReq u.curOp = .softReset ∧ u.phase = false := by
  obtain ⟨_, hphase⟩ := hp hb
  obtain ⟨hne, _⟩ := ha hb
  constructor
  · intro h0
    have hreq : decodeReq u.curOp = .softReset := by_contra fun hreq => hne hreq h0
    refine ⟨hreq, Bool.eq_false_iff.2 fun hphase1 => ?_⟩
    simpa [hreq, h0] using hphase.1 hphase1
  · rintro ⟨hreq, hphase0⟩
    have hnpos : ¬ 1 ≤ u.attempt.toNat := fun hpos => by simpa [hphase0] using hphase.2 (.inr ⟨hreq, hpos⟩)
    exact BitVec.eq_of_toNat_eq (by simpa using hnpos)

/-- R88: `RESP_READ` is entered only for a command that has a response, and `ARBITRATE` only from there. -/
theorem Inv.read_not_reset_transition (hI : Inv s) (h : Transition s u) (hu : u.fsm = .respRead ∨ u.fsm = .arbitrate) :
    u.ec ≠ some .softReset := by
  cases h with
  | settleRead c _ _ _ hc hl =>
    have hne : c ≠ .softReset := mt (respLen_eq_zero c).2 hl
    exact fun heq => hne (Option.some.inj (hc.symm.trans heq))
  | readDone _ _ hf => exact hI.read_not_reset (.inl hf)
  | readWait => exact hI.read_not_reset hu
  | idleWait _ hf | writeWait _ hf | settleTick _ hf | completeWait _ hf => simp [hf] at hu
  | _ => simp at hu

/-- R87, R88: `SETTLE` begins with the ticks of the command, and counts down. -/
theorem Inv.settle_le_transition (hI : Inv s) (h : Transition s u) (hu : u.fsm = .settle) (hc : u.ec = some c) :
    u.timer ≤ settleTicks u.cfg c := by
  cases h with
  | writeDone c' _ _ _ hc' =>
    obtain rfl : c' = c := Option.some.inj (hc'.symm.trans hc)
    exact le_rfl
  | settleTick => exact (Nat.sub_le _ _).trans (hI.settle_le hu c hc)
  | idleWait _ hf | writeWait _ hf | readWait _ hf | completeWait _ hf => simp [hf] at hu
  | _ => simp at hu

/-- R76, R89: `ARBITRATE` is entered with no more bytes than were requested. -/
theorem delivered_le_transition (h : Transition s u) (hu : u.fsm = .arbitrate) (hc : u.ec = some c) :
    u.rlen.toNat ≤ respLen c := by
  cases h with
  | readDone c' _ _ _ hc' =>
    obtain rfl : c' = c := Option.some.inj (hc'.symm.trans hc)
    exact rlen_storeResponse_le s c'
  | idleWait _ hf | writeWait _ hf | settleTick _ hf | readWait _ hf | completeWait _ hf => simp [hf] at hu
  | _ => simp at hu

end Sys2Proof.Safety
end

section
/-! What `COMPLETE` holds after every edge (R22, R23, R62, R92, R124), and the invariant as a whole. -/

namespace Sys2Proof.Safety

open Sys2Proof.Machine

variable {s u : State} {c : Cmd} {code : ResCode}

/-- R105: an illegal request made no attempt. -/
theorem completedResult_illegal (hnone : requestCommand (decodeReq s.curOp) = none) (h0 : s.attempt = 0#4) :
    CompletedResult (s.finish .illegalOp) where
  attempts        := rfl
  illegal_iff     := by simp [hnone]
  illegal_zero    := fun _ => h0
  legal_attempts  := by simp
  mismatch        := by simp
  exhausted       := by simp
  serial_sentinel := by simp
  reset_result    := fun hreq => by simp [show decodeReq s.curOp = .softReset from hreq, requestCommand] at hnone

/-- R78, R79, R97: a request that reads no status ends after its one attempt. -/
theorem completedResult_single (hlegal : requestCommand (decodeReq s.curOp) ≠ none)
    (hn : ¬ readsStatus (decodeReq s.curOp)) (ha : s.attempt = 1#4) (hcode : code = .ok ∨ code = .checksumMismatch)
    (hserial : code = .checksumMismatch → decodeReq s.curOp = .readSerial → s.resSerial = 0#32) :
    CompletedResult (s.finish code) where
  attempts        := rfl
  illegal_iff     := by obtain rfl | rfl := hcode <;> simpa using hlegal
  illegal_zero    := by obtain rfl | rfl := hcode <;> simp
  legal_attempts  := by simp [ha]
  mismatch        := fun _ => ⟨hn, ha⟩
  exhausted       := by obtain rfl | rfl := hcode <;> simp
  serial_sentinel := hserial
  reset_result    := fun hreq => absurd (.inr hreq) hn

/-- R80, R91, R104: a status read ends with a validated attempt, or with the 10th. -/
theorem completedResult_status (hreads : readsStatus (decodeReq s.curOp)) (hpos : 1 ≤ s.attempt.toNat)
    (hcode : code = .ok ∨ (code = .retryExhausted ∧ s.attempt = nAttempts))
    (hreset : decodeReq s.curOp = .softReset → s.resResetOk = !cmdStatus s.cfg.layout s.resStatus) :
    CompletedResult (s.finish code) where
  attempts        := rfl
  illegal_iff     := by
    obtain hreq | hreq := hreads <;> obtain rfl | ⟨rfl, _⟩ := hcode <;> simp [hreq, requestCommand]
  illegal_zero    := by obtain rfl | ⟨rfl, _⟩ := hcode <;> simp
  legal_attempts  := fun _ => hpos
  mismatch        := by obtain rfl | ⟨rfl, _⟩ := hcode <;> simp
  exhausted       := by
    obtain rfl | ⟨rfl, ha⟩ := hcode
    · simp
    · exact fun _ => ⟨hreads, ha⟩
  serial_sentinel := by obtain rfl | ⟨rfl, _⟩ := hcode <;> simp
  reset_result    := hreset

/-- R78: a measurement reads no status. -/
theorem not_readsStatus_of_isMeasurement {i : Instr} (hi : isMeasurement i) : ¬ readsStatus i := by
  obtain rfl | rfl | rfl := hi <;> simp

/-- R88, R90: the response that is judged is that of an attempt from the first on. -/
theorem Inv.attempt_pos_of_arbitrate (hI : Inv s) (hf : s.fsm = .arbitrate) : 1 ≤ s.attempt.toNat := by
  refine Nat.pos_of_ne_zero fun h0 => hI.read_not_reset (.inr hf) ?_
  obtain ⟨hreq, hp⟩ := (hI.attempt_zero (by simp [busy, hf])).1 (BitVec.eq_of_toNat_eq h0)
  exact ec_of_request hreq (by rw [hp]; rfl)

/-- R78. -/
theorem Inv.completedResult_measurement (hI : Inv s) (hf : s.fsm = .arbitrate)
    (hi : isMeasurement (decodeReq s.curOp)) : CompletedResult (arbitrateMeasurement s) := by
  have hb : busy s := by simp [busy, hf]
  have hn := not_readsStatus_of_isMeasurement hi
  have hlegal := hI.busy_legal hb
  have ha := hI.attempt_single hb hn
  obtain ⟨_, hm⟩ | ⟨_, hm⟩ := arbitrateMeasurement_cases s <;> rw [hm]
  · exact completedResult_single hlegal hn ha (.inl rfl) (by simp)
  · refine completedResult_single hlegal hn ha (.inr rfl) fun _ hreq => ?_
    rw [drawMeas_curOp] at hreq
    simp [isMeasurement, hreq] at hi

/-- R79. -/
theorem Inv.completedResult_serial (hI : Inv s) (hf : s.fsm = .arbitrate) (hreq : decodeReq s.curOp = .readSerial) :
    CompletedResult (arbitrateSerial s) := by
  have hb : busy s := by simp [busy, hf]
  have hn : ¬ readsStatus (decodeReq s.curOp) := by simp [hreq]
  have hlegal := hI.busy_legal hb
  have ha := hI.attempt_single hb hn
  obtain ⟨_, hm⟩ | ⟨_, hm⟩ := arbitrateSerial_cases s <;> rw [hm]
  · exact completedResult_single hlegal hn ha (.inl rfl) (by simp)
  · exact completedResult_single hlegal hn ha (.inr rfl) fun _ _ => rfl

/-- R80, R91. -/
theorem Inv.completedResult_statusRead (hI : Inv s) (hf : s.fsm = .arbitrate) (hreads : readsStatus (decodeReq s.curOp))
    (hu : (arbitrateStatus (decide (decodeReq s.curOp = .softReset)) s).fsm = .complete) :
    CompletedResult (arbitrateStatus (decide (decodeReq s.curOp = .softReset)) s) := by
  have hpos := hI.attempt_pos_of_arbitrate hf
  have hresult : ∀ {code : ResCode}, code = .ok ∨ (code = .retryExhausted ∧ s.attempt = nAttempts) →
      CompletedResult ((resetResult (decide (decodeReq s.curOp = .softReset))
        (s.writeStatus (s.rbuf.word 0))).finish code) := fun hcode =>
    completedResult_status (by simpa using hreads) (by simpa using hpos) (by simpa using hcode) (by simp +contextual)
  obtain ⟨_, hm⟩ | ⟨_, ha, hm⟩ | ⟨_, _, hm⟩ := arbitrateStatus_cases (decide (decodeReq s.curOp = .softReset)) s
  · exact hm ▸ hresult (.inl rfl)
  · exact hm ▸ hresult (.inr ⟨rfl, ha⟩)
  · simp [hm] at hu

/-- R92: whatever edge led to `COMPLETE`, or left the block there. -/
theorem Inv.completed_transition (hI : Inv s) (h : Transition s u) (hu : u.fsm = .complete) : CompletedResult u := by
  cases h with
  | completeWait => exact hI.completed hu
  | acceptIllegal _ _ _ hnone => exact completedResult_illegal hnone rfl
  | judgeMeasurement _ _ hf hc hm => exact hI.completedResult_measurement hf (isMeasurement_of_ec hc hm)
  | judgeSerial _ hf hc => exact hI.completedResult_serial hf (readSerial_of_ec hc)
  | judgeStatus _ hf hc =>
    exact hI.completedResult_statusRead hf (hI.readsStatus_of_ec (by simp [busy, hf]) hc) hu
  | idleWait _ hf | writeWait _ hf | settleTick _ hf | readWait _ hf => simp [hf] at hu
  | _ => simp at hu

/-- R23: `RES_ATTEMPTS` takes `ATTEMPT` at a completion, and is written by nothing else but a reset. -/
theorem Inv.resAttempts_le_transition (hI : Inv s) (h : Transition s u) (hr : s.pins.rst = false) :
    u.resAttempts.toNat ≤ 10 := by
  by_cases hu : u.fsm = .complete
  · rw [(hI.completed_transition h hu).attempts]
    exact hI.attempt_le_transition h
  · obtain ⟨_, hsame, _⟩ := h.keeps_results hr fun hn => hu hn.2
    rw [hsame]
    exact hI.resAttempts_le

/-- R21: `RES_VALID` = 1 exactly in `COMPLETE`. -/
theorem Inv.valid_iff_complete_transition (hI : Inv s) (h : Transition s u) (hr : s.pins.rst = false) :
    u.resValid = true ↔ u.fsm = .complete := by
  refine ⟨fun hv => by_contra fun hu => ?_, hI.resValid_of_complete h⟩
  simp [h.resValid_false hI hr hu] at hv

/-- Every edge without a reset keeps the invariant. -/
theorem Inv.transition (hI : Inv s) (h : Transition s u) (hr : s.pins.rst = false) : Inv u where
  params_wf          := h.keeps_cfg ▸ hI.params_wf
  valid_iff_complete := hI.valid_iff_complete_transition h hr
  attempt_le         := hI.attempt_le_transition h
  resAttempts_le     := hI.resAttempts_le_transition h hr
  rlen_le            := hI.rlen_le_transition h
  timer_le           := hI.timer_le_transition h
  busy_legal         := fun hb => (hI.phaseFits_transition h hb).1
  phase_status       := fun hb hreq => (hI.phaseFits_transition h hb).2.2 (.inl hreq)
  phase_one          := fun hb hp => ((hI.phaseFits_transition h hb).2.1 hp).imp_right And.left
  attempt_zero       := attempt_zero_iff (hI.phaseFits_transition h) (hI.attemptFits_transition h)
  attempt_single     := fun hb => (hI.attemptFits_transition h hb).2
  read_not_reset     := hI.read_not_reset_transition h
  settle_le          := fun hu _ hc => hI.settle_le_transition h hu hc
  delivered_le       := fun hu _ hc => delivered_le_transition h hu hc
  completed          := hI.completed_transition h

/-- Settles O9: a reset edge by `inv_blockReset`, and any other by the rows of the transition table, clause by clause. -/
theorem everyStepKeepsInvariant : Obligations.EveryStepKeepsInvariant := by
  intro s t hI hstep
  cases hr : s.pins.rst with
  | true =>
    rw [step_rst hI.params_wf hr, Host.Outcome.next.injEq] at hstep
    exact hstep ▸ (inv_blockReset hI.params_wf).nextEdge
  | false =>
    obtain ⟨_, u, hu, rfl⟩ := step_next hstep
    exact (hI.transition hu hr).nextEdge

end Sys2Proof.Safety
end

section
/-! What a caller may rely on after a completion (R143 to R145). -/

namespace Sys2Proof.Safety

open Sys2Proof.Machine

variable {s t u : State} {known : Bool}

/-- R143 (b), (c): a caller relies only on a register that the completed request writes and that `RES_CODE` does not rule
out. -/
theorem written_and_allowed_of_mayRely {r : ResultReg} (h : mayRely known r t = true) :
    writtenBy r (decodeReq t.curOp) = true ∧ codeAllows r t = true := by
  simp only [mayRely, Bool.and_eq_true] at h
  exact ⟨h.1.2, h.2⟩

/-- R143 (b): the raw words are a measurement's. -/
theorem isMeasurement_of_mayRely {r : ResultReg} (hr : r = .tRaw ∨ r = .rhRaw) (h : mayRely known r t = true) :
    isMeasurement (decodeReq t.curOp) ∧ t.resCode = .ok := by
  obtain ⟨hw, ha⟩ := written_and_allowed_of_mayRely h
  obtain rfl | rfl := hr <;>
    exact ⟨by revert hw; cases decodeReq t.curOp <;> simp [writtenBy, isMeasurement], by simpa [codeAllows] using ha⟩

/-- R143 (b): the serial number is READ_SERIAL's. -/
theorem readSerial_of_mayRely (h : mayRely known .serial t = true) : decodeReq t.curOp = .readSerial := by
  obtain ⟨hw, _⟩ := written_and_allowed_of_mayRely h
  revert hw
  cases decodeReq t.curOp <;> simp [writtenBy]

/-- R143 (b): the status word is that of a request that reads the status. -/
theorem readsStatus_of_mayRely (h : mayRely known .status t = true) : readsStatus (decodeReq t.curOp) := by
  obtain ⟨hw, _⟩ := written_and_allowed_of_mayRely h
  revert hw
  cases decodeReq t.curOp <;> simp [writtenBy, readsStatus]

/-- R78: with the code `OK` the raw words are those of a response that validated. -/
theorem arbitrateMeasurement_ok (h : (arbitrateMeasurement s).resCode = .ok) :
    verdict 2 s = true ∧ (arbitrateMeasurement s).resTRaw = s.rbuf.get 0 ++ s.rbuf.get 1 ∧
      (arbitrateMeasurement s).resRhRaw = s.rbuf.get 3 ++ s.rbuf.get 4 := by
  obtain ⟨hv, hm⟩ | ⟨_, hm⟩ := arbitrateMeasurement_cases s
  · simp [hm, hv, RBuf.word_zero, RBuf.word_one]
  · simp [hm] at h

/-- R79, R144: the code tells the serial number from the sentinel. -/
theorem arbitrateSerial_result (s : State) :
    ((arbitrateSerial s).resCode = .ok ∧ verdict 2 s = true ∧
      (arbitrateSerial s).resSerial = s.rbuf.get 0 ++ s.rbuf.get 1 ++ s.rbuf.get 3 ++ s.rbuf.get 4) ∨
    ((arbitrateSerial s).resCode = .checksumMismatch ∧ verdict 2 s = false ∧ (arbitrateSerial s).resSerial = 0#32) := by
  obtain ⟨hv, hm⟩ | ⟨hv, hm⟩ := arbitrateSerial_cases s
  · exact .inl (by simp [hm, hv, RBuf.serial_eq_bytes])
  · exact .inr (by simp [hm, hv])

/-- R80, R145: a status read that ends has stored the last response's data word, and the code tells whether it validated. -/
theorem arbitrateStatus_result (b : Bool) (h : (arbitrateStatus b s).fsm = .complete) :
    (arbitrateStatus b s).resStatus = s.rbuf.get 0 ++ s.rbuf.get 1 ∧
      ((arbitrateStatus b s).resCode = .ok ↔ verdict 1 s = true) := by
  obtain ⟨hv, hm⟩ | ⟨hv, _, hm⟩ | ⟨_, _, hm⟩ := arbitrateStatus_cases b s
  · simp [hm, hv, RBuf.word_zero]
  · simp [hm, hv, RBuf.word_zero]
  · simp [hm] at h

/-- R82, R90: the arbiter that judges a response is the one of its request. -/
theorem Inv.judged (hI : Inv s) (h : Transition s u) (hr : s.pins.rst = false) (hf : s.fsm = .arbitrate) :
    (isMeasurement (decodeReq s.curOp) → u = arbitrateMeasurement s) ∧
    (decodeReq s.curOp = .readSerial → u = arbitrateSerial s) ∧
    (readsStatus (decodeReq s.curOp) → ∃ b, u = arbitrateStatus b s) := by
  cases h with
  | judgeMeasurement _ _ _ hc hm =>
    have hreq := isMeasurement_of_ec hc hm
    exact ⟨fun _ => rfl, fun h => by simp [isMeasurement, h] at hreq,
      fun h => absurd h (not_readsStatus_of_isMeasurement hreq)⟩
  | judgeSerial _ _ hc => simp [isMeasurement, readsStatus, readSerial_of_ec hc]
  | judgeStatus _ _ hc =>
    have hreq := hI.readsStatus_of_ec (by simp [busy, hf]) hc
    exact ⟨fun h => absurd hreq (not_readsStatus_of_isMeasurement h), fun h => by simp [readsStatus, h] at hreq,
      fun _ => ⟨_, rfl⟩⟩
  | reset hrst => simp [hrst] at hr
  | idleWait _ hs | acceptIllegal _ hs | accept _ _ hs | writeWait _ hs | writeDone _ _ hs | settleTick _ hs
  | settleReset _ _ hs | settleRead _ _ hs | readWait _ hs | readDone _ _ hs | completeWait _ hs | completeAck _ hs =>
    simp [hs] at hf

/-- Settles O41: the register tells the request, the request its arbiter, and the arbiter what it wrote. -/
theorem reliableResultsAreTheResponses : Obligations.ReliableResultsAreTheResponses := by
  intro s t known hI hr hf hstep ht
  obtain ⟨_, u, hu, rfl⟩ := step_next hstep
  obtain ⟨hop, _⟩ := hu.keeps_latched hr (by simp [hf])
  obtain ⟨hmeas, hserial, hstatus⟩ := hI.judged hu hr hf
  rw [← hop] at hmeas hserial hstatus
  refine ⟨fun h => ?_, fun h => ?_, fun h => ?_, fun h => ?_⟩
  · obtain ⟨hreq, hok⟩ := isMeasurement_of_mayRely (.inl rfl) h
    obtain rfl := hmeas hreq
    obtain ⟨hv, hraw, _⟩ := arbitrateMeasurement_ok hok
    exact ⟨hv, hraw⟩
  · obtain ⟨hreq, hok⟩ := isMeasurement_of_mayRely (.inr rfl) h
    obtain rfl := hmeas hreq
    obtain ⟨hv, _, hraw⟩ := arbitrateMeasurement_ok hok
    exact ⟨hv, hraw⟩
  · obtain rfl := hserial (readSerial_of_mayRely h)
    exact arbitrateSerial_result s
  · obtain ⟨b, rfl⟩ := hstatus (readsStatus_of_mayRely h)
    exact arbitrateStatus_result b ht

end Sys2Proof.Safety
end
